-- ==== Sys2Proof/Word.lean ====
section
/-! DEFINITION. The word types of the block: a byte of the link or of the receive buffer, and a 32-bit storage offset
(00_scope.md section 6, 10_state.md R23, R24). Every quantity is unsigned. -/

namespace Sys2Proof

/-- Eight bits, bit 0 the least significant (00_scope.md section 6). -/
abbrev Byte := BitVec 8

/-- A 32-bit unsigned quantity of the session: `baseOffset`, `bytesStored`, a storage offset (10_state.md R23, R24). Its
addition is the spec's `+_32`. -/
abbrev Offset := BitVec 32

end Sys2Proof
end

