-- ==== Sys2Proof/Config.lean ====
section
/-! DEFINITION. The implementation parameters (00_scope.md section 4), the fixed literals (00_scope.md R4) and the one free value:
what the storage collaborator answers (00_scope.md R11). -/

namespace Sys2Proof

/-- `OVERLEN_POLICY`: what the decoder does with a declared length above `MAX_PAYLOAD` (41_frame_decoder.md R87). -/
inductive OverlenPolicy where
  | reject
  | clamp
deriving DecidableEq, Repr

/-- The synthesis-time parameters, with the bounds 00_scope.md R2, R3 and section 4 put on them, so that a configuration the spec
does not allow cannot be written. `TICK_PERIOD` is timing only and is not here (R10). -/
structure Config where
  /-- `MAX_PAYLOAD`, the largest payload a frame may declare. -/
  maxPayload : Nat
  /-- `IDLE_THRESHOLD`, the tick count the idle counter must exceed. -/
  idleThreshold : Nat
  overlenPolicy : OverlenPolicy
  /-- `IDLE_BITS`, the width of `idleTicks`. -/
  idleBits : Nat
  /-- `WRITTEN_BITS`, the width of the storage answer. -/
  writtenBits : Nat
  four_le_maxPayload : 4 ≤ maxPayload
  maxPayload_le : maxPayload ≤ 65535
  one_le_idleThreshold : 1 ≤ idleThreshold
  idleThreshold_fits : idleThreshold + 1 < 2 ^ idleBits
  sixteen_le_writtenBits : 16 ≤ writtenBits
deriving DecidableEq, Repr

/-- `CAP = MAX_PAYLOAD + 8`, the bytes of the receive buffer; not free (00_scope.md R2). -/
def Config.cap (c : Config) : Nat := c.maxPayload + 8

/-- The reference implementation, this hardware's default (00_scope.md section 4). -/
def Config.reference : Config where
  maxPayload := 1000
  idleThreshold := 10
  overlenPolicy := .reject
  idleBits := 8
  writtenBits := 16
  four_le_maxPayload := by decide
  maxPayload_le := by decide
  one_le_idleThreshold := by decide
  idleThreshold_fits := by decide
  sixteen_le_writtenBits := by decide

/-- The reference parameters with the other length policy: the literal text's `clamp` (41_frame_decoder.md R87). -/
def Config.referenceClamp : Config := { Config.reference with overlenPolicy := .clamp }

/-! The literals of 00_scope.md R4. -/

def head1 : Byte := 0xC5
def head2 : Byte := 0x5C
def tail1 : Byte := 0x5A
def tail2 : Byte := 0xA5
def cmdData : Byte := 0x00
def cmdBegin : Byte := 0x01
def cmdEnd : Byte := 0x02
def cmdAck : Byte := 0xFF
def resOk : Byte := 0x00
def resVerify : Byte := 0x01
def resFull : Byte := 0x02
/-- Defined on the wire and emitted by nothing (60_exceptions.md R135). -/
def resUnknown : Byte := 0xFF
/-- The bytes of a frame that are not payload. -/
def frameOverhead : Nat := 8
/-- The size of the acknowledgment frame. -/
def ackLen : Nat := 10

/-- FREE VALUE (DESIGN CHOICE, log 3, safe): the storage collaborator's answer to the `k`-th request for which the environment's
list of answers holds none. 00_scope.md R11: `written = draw(0 .. n)`; 93_implementation_defined.md U14: `any value`. It has no body. -/
opaque Config.freeStoreAnswer : Nat → Nat

end Sys2Proof
end

