-- ==== Sys2Proof/Syntax.lean ====
section
/-! DEFINITION. The instructions: one constructor per row of spec/opcode_table.json. One received frame is one instruction
(30_encoding.md), and `ackTx` is the frame the block emits. -/

namespace Sys2Proof

/-- The 18 rows of the command map (30_encoding.md R54). A received frame carries its payload (`LEN` is its length); a row whose
mask leaves bits of `CMD` open carries those bits, because the ACK echoes the whole command byte (42_command_dispatch.md R106). -/
inductive Instr where
  /-- CMD 0x00 (R100). -/
  | data (payload : List Byte)
  /-- CMD 0x01 (R102). -/
  | begin (payload : List Byte)
  /-- CMD 0x02 (R104). -/
  | end_ (payload : List Byte)
  /-- CMD 0x03 (R106), as are all `rsvd` rows below. -/
  | rsvd03 (payload : List Byte)
  /-- CMD 000001xx. -/
  | rsvd04_07 (low : BitVec 2) (payload : List Byte)
  /-- CMD 00001xxx. -/
  | rsvd08_0F (low : BitVec 3) (payload : List Byte)
  /-- CMD 0001xxxx. -/
  | rsvd10_1F (low : BitVec 4) (payload : List Byte)
  /-- CMD 001xxxxx. -/
  | rsvd20_3F (low : BitVec 5) (payload : List Byte)
  /-- CMD 01xxxxxx. -/
  | rsvd40_7F (low : BitVec 6) (payload : List Byte)
  /-- CMD 10xxxxxx. -/
  | rsvd80_BF (low : BitVec 6) (payload : List Byte)
  /-- CMD 110xxxxx. -/
  | rsvdC0_DF (low : BitVec 5) (payload : List Byte)
  /-- CMD 1110xxxx. -/
  | rsvdE0_EF (low : BitVec 4) (payload : List Byte)
  /-- CMD 11110xxx. -/
  | rsvdF0_F7 (low : BitVec 3) (payload : List Byte)
  /-- CMD 111110xx. -/
  | rsvdF8_FB (low : BitVec 2) (payload : List Byte)
  /-- CMD 1111110x. -/
  | rsvdFC_FD (low : BitVec 1) (payload : List Byte)
  /-- CMD 0xFE. -/
  | rsvdFE (payload : List Byte)
  /-- CMD 0xFF, received (R105). -/
  | ackRx (payload : List Byte)
  /-- The emitted ACK frame, format TXF: echoed command and result code (30_encoding.md R58, 43_ack_encoder.md R114). -/
  | ackTx (cmd res : Byte)
deriving DecidableEq, Repr

end Sys2Proof
end

