-- ==== Sys2Proof/WellFormed.lean ====
section
/-! DEFINITION. Which instruction terms a configuration's encodings admit. -/

namespace Sys2Proof

/-- A received frame's payload is at most `MAX_PAYLOAD` bytes (30_encoding.md R50, R66). -/
def payloadFits (c : Config) (payload : List Byte) : Bool := decide (payload.length ≤ c.maxPayload)

/-- The result codes the block emits (30_encoding.md R59, 60_exceptions.md R132). -/
def isResultCode (r : Byte) : Bool := r == resOk || r == resVerify || r == resFull

/-- The checks on an instruction: the payload bound for a received frame, a legal result code for the emitted ACK. -/
def Instr.wellFormed (c : Config) : Instr → Bool
  | .data p => payloadFits c p
  | .begin p => payloadFits c p
  | .end_ p => payloadFits c p
  | .rsvd03 p => payloadFits c p
  | .rsvd04_07 _ p => payloadFits c p
  | .rsvd08_0F _ p => payloadFits c p
  | .rsvd10_1F _ p => payloadFits c p
  | .rsvd20_3F _ p => payloadFits c p
  | .rsvd40_7F _ p => payloadFits c p
  | .rsvd80_BF _ p => payloadFits c p
  | .rsvdC0_DF _ p => payloadFits c p
  | .rsvdE0_EF _ p => payloadFits c p
  | .rsvdF0_F7 _ p => payloadFits c p
  | .rsvdF8_FB _ p => payloadFits c p
  | .rsvdFC_FD _ p => payloadFits c p
  | .rsvdFE p => payloadFits c p
  | .ackRx p => payloadFits c p
  | .ackTx _ r => isResultCode r

/-- A frame of format RXF, what the block accepts; only `ackTx` is of format TXF (30_encoding.md R50). -/
def Instr.isReceived : Instr → Bool
  | .data _ | .begin _ | .end_ _ | .rsvd03 _ | .rsvd04_07 _ _ | .rsvd08_0F _ _ | .rsvd10_1F _ _ | .rsvd20_3F _ _
  | .rsvd40_7F _ _ | .rsvd80_BF _ _ | .rsvdC0_DF _ _ | .rsvdE0_EF _ _ | .rsvdF0_F7 _ _ | .rsvdF8_FB _ _
  | .rsvdFC_FD _ _ | .rsvdFE _ | .ackRx _ => true
  | .ackTx _ _ => false

end Sys2Proof
end

