-- ==== Sys2Proof/Decode.lean ====
section
/-! DEFINITION. The frame decoder (41_frame_decoder.md), total on any byte list and rejecting by name, and after it the encoder
(30_encoding.md R57), both written from the frame layout of 30_encoding.md R51. -/

namespace Sys2Proof

/-! ### Multi-byte values and the checksum -/

/-- `be16(h, l) = h * 256 + l` (00_scope.md section 6, 30_encoding.md R52). -/
def be16 (h l : Byte) : Nat := h.toNat * 256 + l.toNat

/-- `be32(b0, b1, b2, b3)`, first byte most significant (00_scope.md section 6, 20_memory.md R36). -/
def be32 (b0 b1 b2 b3 : Byte) : Offset := b0 ++ b1 ++ b2 ++ b3

/-- `xor_fold(list)`: the XOR of all bytes, 0x00 for the empty list (00_scope.md section 6). -/
def xorFold : List Byte → Byte
  | [] => 0
  | b :: bs => b ^^^ xorFold bs

/-! ### The command byte -/

/-- The instruction a command byte selects, with the payload handed on (30_encoding.md R54; the match and mask values are
those of opcode_table.json). Total: the last case is 0xFF alone (`Laws.cmd_ofCmd`). -/
def ofCmd (c : Byte) (p : List Byte) : Instr :=
  if c &&& 0xFF = 0x00 then .data p
  else if c &&& 0xFF = 0x01 then .begin p
  else if c &&& 0xFF = 0x02 then .end_ p
  else if c &&& 0xFF = 0x03 then .rsvd03 p
  else if c &&& 0xFC = 0x04 then .rsvd04_07 (c.truncate 2) p
  else if c &&& 0xF8 = 0x08 then .rsvd08_0F (c.truncate 3) p
  else if c &&& 0xF0 = 0x10 then .rsvd10_1F (c.truncate 4) p
  else if c &&& 0xE0 = 0x20 then .rsvd20_3F (c.truncate 5) p
  else if c &&& 0xC0 = 0x40 then .rsvd40_7F (c.truncate 6) p
  else if c &&& 0xC0 = 0x80 then .rsvd80_BF (c.truncate 6) p
  else if c &&& 0xE0 = 0xC0 then .rsvdC0_DF (c.truncate 5) p
  else if c &&& 0xF0 = 0xE0 then .rsvdE0_EF (c.truncate 4) p
  else if c &&& 0xF8 = 0xF0 then .rsvdF0_F7 (c.truncate 3) p
  else if c &&& 0xFC = 0xF8 then .rsvdF8_FB (c.truncate 2) p
  else if c &&& 0xFE = 0xFC then .rsvdFC_FD (c.truncate 1) p
  else if c &&& 0xFF = 0xFE then .rsvdFE p
  else .ackRx p

/-- The command byte of an instruction's frame: the row's match value with its open bits (30_encoding.md R54). -/
def Instr.cmd : Instr → Byte
  | .data _ => cmdData
  | .begin _ => cmdBegin
  | .end_ _ => cmdEnd
  | .rsvd03 _ => 0x03
  | .rsvd04_07 low _ => (0b000001 : BitVec 6) ++ low
  | .rsvd08_0F low _ => (0b00001 : BitVec 5) ++ low
  | .rsvd10_1F low _ => (0b0001 : BitVec 4) ++ low
  | .rsvd20_3F low _ => (0b001 : BitVec 3) ++ low
  | .rsvd40_7F low _ => (0b01 : BitVec 2) ++ low
  | .rsvd80_BF low _ => (0b10 : BitVec 2) ++ low
  | .rsvdC0_DF low _ => (0b110 : BitVec 3) ++ low
  | .rsvdE0_EF low _ => (0b1110 : BitVec 4) ++ low
  | .rsvdF0_F7 low _ => (0b11110 : BitVec 5) ++ low
  | .rsvdF8_FB low _ => (0b111110 : BitVec 6) ++ low
  | .rsvdFC_FD low _ => (0b1111110 : BitVec 7) ++ low
  | .rsvdFE _ => 0xFE
  | .ackRx _ => cmdAck
  | .ackTx _ _ => cmdAck

/-- The payload of an instruction's frame; the emitted ACK's is the echoed command and the result (30_encoding.md R58). -/
def Instr.payload : Instr → List Byte
  | .data p => p
  | .begin p => p
  | .end_ p => p
  | .rsvd03 p => p
  | .rsvd04_07 _ p => p
  | .rsvd08_0F _ p => p
  | .rsvd10_1F _ p => p
  | .rsvd20_3F _ p => p
  | .rsvd40_7F _ p => p
  | .rsvd80_BF _ p => p
  | .rsvdC0_DF _ p => p
  | .rsvdE0_EF _ p => p
  | .rsvdF0_F7 _ p => p
  | .rsvdF8_FB _ p => p
  | .rsvdFC_FD _ p => p
  | .rsvdFE p => p
  | .ackRx p => p
  | .ackTx c r => [c, r]

/-! ### The decoder -/

/-- Why a candidate frame is no instruction. The first four are the checks of 41_frame_decoder.md R84, all reported with one
result code; the last is the read 93_implementation_defined.md U1 forbids a value for (log 14). -/
inductive DecodeError where
  /-- Check 1 (R85). -/
  | headMismatch
  /-- `LEN > MAX_PAYLOAD` under `reject` (R87). -/
  | lengthTooLarge
  /-- Check 3 (R88). -/
  | checksumMismatch
  /-- Check 4 (R89). -/
  | trailerMismatch
  /-- The bytes given end before the trailer the declared length points at. -/
  | indexOutOfRange
deriving DecidableEq, Repr

/-- What a decoder answers. -/
inductive Decoded where
  | valid (i : Instr)
  | invalid (e : DecodeError)
deriving DecidableEq, Repr

/-- The length bound of 41_frame_decoder.md R87: the length decoding goes on with, or none where the frame is rejected. -/
def boundLength (c : Config) (len : Nat) : Option Nat :=
  if len ≤ c.maxPayload then some len
  else match c.overlenPolicy with
    | .reject => none
    | .clamp => some c.maxPayload

/-- `Decode` (41_frame_decoder.md R93) on the buffer's bytes from index 0. The checksum covers the command, the two length bytes
as received and the payload (R88); trailing bytes are not looked at (R97). -/
def decode (c : Config) : List Byte → Decoded
  | h1 :: h2 :: cmd :: lenHi :: lenLo :: body =>
    if h1 ≠ head1 ∨ h2 ≠ head2 then .invalid .headMismatch
    else match boundLength c (be16 lenHi lenLo) with
      | none => .invalid .lengthTooLarge
      | some len =>
        match body.drop len with
        | bcc :: t1 :: t2 :: _ =>
          if xorFold (cmd :: lenHi :: lenLo :: body.take len) ≠ bcc then .invalid .checksumMismatch
          else if t1 ≠ tail1 ∨ t2 ≠ tail2 then .invalid .trailerMismatch
          else .valid (ofCmd cmd (body.take len))
        | _ => .invalid .indexOutOfRange
  | _ => .invalid .indexOutOfRange

/-- The reader of format TXF: exactly ten bytes with the fixed fields of 30_encoding.md R58 and the checksum of 43_ack_encoder.md
R115. The block never decodes an ACK it emits; this names the emitted frame as an instruction (log 10). -/
def decodeTx : List Byte → Decoded
  | [h1, h2, cmd, lenHi, lenLo, c, r, bcc, t1, t2] =>
    if h1 ≠ head1 ∨ h2 ≠ head2 ∨ cmd ≠ cmdAck ∨ be16 lenHi lenLo ≠ 2 then .invalid .headMismatch
    else if xorFold [cmd, lenHi, lenLo, c, r] ≠ bcc then .invalid .checksumMismatch
    else if t1 ≠ tail1 ∨ t2 ≠ tail2 then .invalid .trailerMismatch
    else .valid (.ackTx c r)
  | _ => .invalid .indexOutOfRange

/-! ### The encoder -/

/-- `encode(cmd, payload)` of 30_encoding.md R57, for a payload of at most 65535 bytes. -/
def encodeFrame (cmd : Byte) (payload : List Byte) : List Byte :=
  let hi : Byte := BitVec.ofNat 8 (payload.length / 256)
  let lo : Byte := BitVec.ofNat 8 payload.length
  [head1, head2, cmd, hi, lo] ++ payload ++ [xorFold ([cmd, hi, lo] ++ payload), tail1, tail2]

/-- The bytes of an instruction, first on the wire first. -/
def encode (i : Instr) : List Byte := encodeFrame i.cmd i.payload

/-- The ACK frame of 30_encoding.md R58, 43_ack_encoder.md R114, from its two payload bytes. -/
def ackFrame (cmd res : Byte) : List Byte :=
  [head1, head2, cmdAck, 0x00, 0x02, cmd, res, cmdAck ^^^ 0x00 ^^^ 0x02 ^^^ cmd ^^^ res, tail1, tail2]

/-! ### The opcode table's words -/

/-- Byte `k` of a word numbered as the opcode table numbers it: bit 0 is the least significant bit of the first byte. -/
def wordByte (w k : Nat) : Byte := BitVec.ofNat 8 (w / 256 ^ k)

/-- The first `n` bytes of a word, the first at the lowest address. -/
def wordBytes (w : Nat) : Nat → List Byte
  | 0 => []
  | n + 1 => wordByte w 0 :: wordBytes (w / 256) n

/-- The width at which a word is the selector byte `CMD` of an RXF row: the only byte opcode_table.json gives those rows. -/
def selectorBits : Nat := 8

/-- The width of the row `ACK_TX`. -/
def ackTxBits : Nat := 80

/-- The frame of format RXF a table word stands for, as the hardware stores it (log 9). A word of eight bits is the selector
`CMD`; the table gives no other field bits, so `LEN = 0`, the payload is absent, and the sentinels and the checksum are those
the layout computes (30_encoding.md R51, R57). A wider word gives the frame's bytes themselves. -/
def tableFrame (nbits w : Nat) : List Byte :=
  if nbits ≤ selectorBits then encodeFrame (wordByte w 0) [] else wordBytes w (nbits / 8)

/-- The bytes of the row `ACK_TX` a word of 80 bits stands for. The checksum byte is computed, not an operand: left at 0 it is
laid out as the block computes it (log 10); any other value is kept. -/
def tableAckFrame (w : Nat) : List Byte :=
  match wordBytes w 10 with
  | [h1, h2, cmd, lenHi, lenLo, c, r, bcc, t1, t2] =>
    [h1, h2, cmd, lenHi, lenLo, c, r, if bcc = 0 then xorFold [cmd, lenHi, lenLo, c, r] else bcc, t1, t2]
  | bs => bs

/-- What the decoder answers, where it answers an instruction. -/
def Decoded.instr? : Decoded → Option Instr
  | .valid i => some i
  | .invalid _ => none

/-- The instruction the decoder reads from a word of the opcode table (reference configuration); the buffer beyond the frame is
zero (20_memory.md R49). -/
def decodeTableWord (nbits w : Nat) : Option Instr :=
  if nbits = ackTxBits then (decodeTx (tableAckFrame w)).instr?
  else (decode Config.reference (tableFrame nbits w ++ List.replicate Config.reference.cap 0)).instr?

end Sys2Proof
end

