-- ==== Sys2Proof/Machine/State.lean ====
section
/-! DEFINITION. The machine's state as plain data: the ten fields of 10_state.md R13 and, marked as the model's own, the
configuration, the environment's inputs still to come and the observation of 00_scope.md R9. -/

namespace Sys2Proof.Machine

/-- The sequencer's phases (10_state.md R20, 44_sequencer.md R120). -/
inductive Phase where
  | idle
  | decoding
  | ackPending
deriving DecidableEq, Repr

/-- One turn of an execution (00_scope.md R6, R8): an input event, or the sequencer's opportunity to take its enabled step. -/
inductive Turn where
  /-- `Reset` on port RST (70_reset_and_hazards.md R153). -/
  | reset
  /-- `Clear` on port CLR (40_receive_buffer_and_timer.md R78). -/
  | clear
  /-- `RxByte(b)` on port RX (R71). -/
  | rxByte (b : Byte)
  /-- `Tick` on port TICK (R75, R76). -/
  | tick
  /-- The sequencer may move (44_sequencer.md R120). -/
  | sequencer
deriving DecidableEq, Repr

/-- The events of one clock cycle, before 00_scope.md R7 puts them in order. -/
structure Cycle where
  reset : Bool := false
  clear : Bool := false
  rxByte : Option Byte := none
  tick : Bool := false
  sequencer : Bool := false
deriving DecidableEq, Repr

/-- A request the block issued (00_scope.md R5, R9). -/
inductive Output where
  /-- `StoreWrite(offset, n, bytes) -> written` on port STORE (20_memory.md R40). -/
  | storeWrite (offset : Offset) (n : Nat) (bytes : List Byte) (written : Nat)
  /-- `TxSend(bytes, n)` on port TX; the answer is not read (43_ack_encoder.md R117). -/
  | txSend (bytes : List Byte) (n : Nat)
deriving DecidableEq, Repr

/-- The result of decoding and dispatching a frame (60_exceptions.md R132). RES_UNKNOWN has no constructor: no rule produces it
(R135). -/
inductive Result where
  | ok
  /-- `raise VerificationError` (R133). -/
  | verificationError
  /-- `raise StorageFull` (R134). -/
  | storageFull
deriving DecidableEq, Repr

/-- Bytes by index in one canonical form (`Memory.wf`): indices strictly rising, no byte equal to 0x00, which is what an unlisted
index reads as (10_state.md R28, 40_receive_buffer_and_timer.md R79). -/
abbrev Memory := List Host.Cell

/-- Why a step can stop with a fault. -/
inductive Fault where
  /-- Raised by `step` alone, where the decoder would index outside the buffer; 93_implementation_defined.md U1 gives that read no
  value. No state reaches it (41_frame_decoder.md R92). Safe. -/
  | bufferIndexOutOfRange
deriving DecidableEq, Repr

/-- Why a step can refuse. -/
inductive Refusal where
  /-- Raised by an arm of `exec` whose instruction has no meaning yet; every instruction has one, so nothing raises it. Safe. -/
  | notModelled (mnemonic : String)
deriving DecidableEq, Repr

/-- The state. The first ten fields are the record `S` of 10_state.md R13; the other five are the model's own (logs 1, 3, 4, 5). -/
structure State where
  /-- The receive buffer (R14). -/
  buf : Memory
  /-- The write cursor (R15). -/
  tail : Nat
  /-- "Active" (R16). -/
  receiving : Bool
  /-- The inactivity counter (R19). -/
  idleTicks : Nat
  /-- "Receiving-finished" (R17). -/
  frameReady : Bool
  /-- The sequencer's position (R20). -/
  phase : Phase
  /-- The command byte to echo (R21). -/
  ackCmd : Byte
  /-- The result code to send (R22). -/
  ackRes : Byte
  /-- The storage offset of the session (R23). -/
  baseOffset : Offset
  /-- The bytes written since BEGIN (R24). -/
  bytesStored : Offset
  /-- MODEL'S OWN: the synthesis-time parameters, written by no step. -/
  config : Config
  /-- MODEL'S OWN: the turns still to come, the next first; when none is left only the sequencer moves. -/
  schedule : List Turn
  /-- MODEL'S OWN: the storage collaborator's answers still to come, the next first. -/
  storeAnswers : List Nat
  /-- MODEL'S OWN: how many storage answers were drawn. -/
  draws : Nat
  /-- MODEL'S OWN: the requests issued so far, oldest first (00_scope.md R9). -/
  outputs : List Output
deriving DecidableEq, Repr

/-- Right after reset (10_state.md R28), with nothing offered by the environment and nothing observed. -/
def State.reset : State where
  buf := []
  tail := 0
  receiving := false
  idleTicks := 0
  frameReady := false
  phase := .idle
  ackCmd := 0x00
  ackRes := 0x00
  baseOffset := 0
  bytesStored := 0
  config := Config.reference
  schedule := []
  storeAnswers := []
  draws := 0
  outputs := []

end Sys2Proof.Machine
end

