-- ==== Sys2Proof/Machine/Flags.lean ====
section
/-! DEFINITION. The flag and result computations: the inactivity counter and its comparison, the outcome of a storage write, the
result codes. The block has no other flags (10_state.md R18). -/

namespace Sys2Proof.Machine

/-- The counter after one more tick, in `IDLE_BITS` bits (10_state.md R19, log 11). -/
def nextIdleTicks (c : Config) (ticks : Nat) : Nat := (ticks + 1) % 2 ^ c.idleBits

/-- The comparison of 40_receive_buffer_and_timer.md R76, made on the counter after the increment and strict. -/
def idleExpired (c : Config) (ticks : Nat) : Bool := decide (c.idleThreshold < ticks)

/-- A short write is the one error a command can end in (42_command_dispatch.md R100, R101). -/
def writeResult (written len : Nat) : Result := if written < len then .storageFull else .ok

/-- The session's count after a storage answer: unchanged after a short write, advanced by the answer modulo 2^32 otherwise
(42_command_dispatch.md R100, R101, R107). -/
def bytesStoredAfter (bytesStored : Offset) (written len : Nat) : Offset :=
  if written < len then bytesStored else bytesStored + BitVec.ofNat 32 written

/-- The byte on the wire (30_encoding.md R59). -/
def Result.code : Result → Byte
  | .ok => resOk
  | .verificationError => resVerify
  | .storageFull => resFull

end Sys2Proof.Machine
end

