-- ==== Sys2Proof/Machine/Memory.lean ====
section
/-! DEFINITION. The operations over the receive buffer's bytes (20_memory.md R31, R32, R39), each keeping the canonical form. -/

namespace Sys2Proof.Machine

/-- What a byte nothing has written since the last clear reads as (40_receive_buffer_and_timer.md R79, 20_memory.md R49). -/
def Memory.unlisted : Byte := 0x00

/-- The canonical form from index `lo` on. -/
def Memory.wfFrom : Nat → Memory → Bool
  | _, [] => true
  | lo, (a, v) :: m => decide (lo ≤ a) && (v != Memory.unlisted) && Memory.wfFrom (a + 1) m

/-- The canonical form: indices strictly rising, no listed byte equal to what an unlisted index reads as. -/
def Memory.wf (m : Memory) : Bool := Memory.wfFrom 0 m

/-- Every listed index is below `n`. -/
def Memory.below (n : Nat) (m : Memory) : Bool := m.all fun c => decide (c.1 < n)

/-- `buf[i]`. -/
def Memory.read : Memory → Nat → Byte
  | [], _ => Memory.unlisted
  | (a, v) :: m, i => if i = a then v else Memory.read m i

/-- Puts a byte at an index of a canonical memory: a zero byte removes the entry. -/
def Memory.write : Memory → Nat → Byte → Memory
  | [], i, b => if b = Memory.unlisted then [] else [(i, b)]
  | (a, v) :: m, i, b =>
    if i < a then (if b = Memory.unlisted then (a, v) :: m else (i, b) :: (a, v) :: m)
    else if i = a then (if b = Memory.unlisted then m else (i, b) :: m)
    else (a, v) :: Memory.write m i b

/-- `MemRead(i, n)`: `n` consecutive bytes from index `i`, lowest index first (00_scope.md section 7). -/
def Memory.readRange (m : Memory) : Nat → Nat → List Byte
  | _, 0 => []
  | i, n + 1 => m.read i :: m.readRange (i + 1) n

/-- The memory that holds the bytes of a list from index `i` on and nothing else. -/
def Memory.ofBytesFrom : Nat → List Byte → Memory
  | _, [] => []
  | i, b :: bs => if b = Memory.unlisted then Memory.ofBytesFrom (i + 1) bs else (i, b) :: Memory.ofBytesFrom (i + 1) bs

/-- The memory that holds the bytes of a list from index 0 on: a frame as the buffer holds it (20_memory.md R32, R49). -/
def Memory.ofBytes (bs : List Byte) : Memory := Memory.ofBytesFrom 0 bs

end Sys2Proof.Machine
end

