-- ==== Sys2Proof/Machine/Operands.lean ====
section
/-! DEFINITION. Where an instruction's operands come from: the decoder's view of the buffer, the BEGIN offset, the DATA offset. -/

namespace Sys2Proof.Machine

/-- The whole buffer as the decoder reads it, `buf[0 .. CAP)` (41_frame_decoder.md R83). -/
def State.bufBytes (s : State) : List Byte := s.buf.readRange 0 s.config.cap

/-- `buf[2]`: the byte that is echoed, whatever it is (43_ack_encoder.md R116). In range in every configuration: `CAP >= 12`
(41_frame_decoder.md R92). -/
def State.echoedCmd (s : State) : Byte := s.buf.read 2

/-- The BEGIN operand `be32(buf[5], buf[6], buf[7], buf[8])`, read whatever `LEN` is (30_encoding.md R60,
42_command_dispatch.md R103). In range in every configuration (R92). -/
def State.beginOffset (s : State) : Offset := be32 (s.buf.read 5) (s.buf.read 6) (s.buf.read 7) (s.buf.read 8)

/-- The storage offset of a DATA frame, `baseOffset +_32 bytesStored` (42_command_dispatch.md R100, R107). -/
def State.dataOffset (s : State) : Offset := s.baseOffset + s.bytesStored

/-- The storage collaborator's answer to the next request: `WRITTEN_BITS` bits of what the environment lists, a free value where it
lists nothing (00_scope.md R11, log 3). -/
def State.storeAnswer (s : State) : Nat :=
  (match s.storeAnswers with
    | a :: _ => a
    | [] => Config.freeStoreAnswer s.draws) % 2 ^ s.config.writtenBits

end Sys2Proof.Machine
end

