-- ==== Sys2Proof/Machine/Ops.lean ====
section
/-! DEFINITION. The named operations every meaning and the step are built from: the receiver's events, the requests on the two
ports, taking a result (the block's "exception entry") and ending a service (its "return"), reset, and the turns. -/

namespace Sys2Proof.Machine

/-! ### The receiver (40_receive_buffer_and_timer.md) -/

/-- `ClearReceiver` (R79). -/
def State.clearReceiver (s : State) : State :=
  { s with buf := [], tail := 0, receiving := false, idleTicks := 0, frameReady := false }

/-- Where an accepted byte goes: a full buffer wraps the cursor first (R73). -/
def State.writeCursor (s : State) : Nat := if s.config.cap ≤ s.tail then 0 else s.tail

/-- `RxByte(b)` (R71): dropped without effect while `frameReady` (R72), stored otherwise. -/
def State.rxByte (b : Byte) (s : State) : State :=
  if s.frameReady then s
  else { s with
    buf := s.buf.write s.writeCursor b
    tail := s.writeCursor + 1
    receiving := true
    idleTicks := 0 }

/-- `Tick` (R75, R76). -/
def State.tick (s : State) : State :=
  if s.receiving then
    let n := nextIdleTicks s.config s.idleTicks
    if idleExpired s.config n then { s with idleTicks := n, frameReady := true, receiving := false }
    else { s with idleTicks := n }
  else s

/-- `Clear` (R78): honoured in IDLE only. -/
def State.clear (s : State) : State := if s.phase = .idle then s.clearReceiver else s

/-! ### Reset (70_reset_and_hazards.md) -/

/-- `Reset` (R153): every field of the record `S` takes its reset value; the parameters, the environment's inputs and what was
already observed are not the block's state and stay (R155, log 1). -/
def State.resetBlock (s : State) : State :=
  { State.reset with
    config := s.config
    schedule := s.schedule
    storeAnswers := s.storeAnswers
    draws := s.draws
    outputs := s.outputs }

/-! ### The requests on STORE and TX -/

/-- `StoreWrite(offset, LEN, bytes)` (20_memory.md R40): the request is observed with the answer it got, and the answer is used up. -/
def State.storeWrite (offset : Offset) (bytes : List Byte) (s : State) : State :=
  { s with
    storeAnswers := s.storeAnswers.tail
    draws := s.draws + 1
    outputs := s.outputs ++ [.storeWrite offset bytes.length bytes s.storeAnswer] }

/-- `TxSend(bytes, n)` (43_ack_encoder.md R114): its answer is ignored (R117). -/
def State.txSend (bytes : List Byte) (s : State) : State :=
  { s with outputs := s.outputs ++ [.txSend bytes bytes.length] }

/-! ### Taking a result, and returning

60_exceptions.md R137, R143: an error saves nothing but the pair to acknowledge and goes where a good frame goes. R145: the return
is the ordinary end of the service. -/

/-- Ends decode and dispatch with a result: latches `buf[2]` and the result code, `phase <- ACK_PENDING` (44_sequencer.md R122). -/
def State.takeResult (r : Result) (s : State) : State :=
  { s with ackCmd := s.echoedCmd, ackRes := r.code, phase := .ackPending }

/-- `raise VerificationError` (60_exceptions.md R133, R137): the command is not executed. -/
def State.raiseVerificationError (s : State) : State := s.takeResult .verificationError

/-- The end of a service (44_sequencer.md R123): the receiver is reopened and the sequencer waits again. -/
def State.endService (s : State) : State := { s.clearReceiver with phase := .idle }

/-! ### The sequencer's first step -/

/-- `SeqStart` (44_sequencer.md R121), enabled by `frameReady`; otherwise the sequencer waits in IDLE. -/
def State.seqStart (s : State) : State := if s.frameReady then { s with phase := .decoding } else s

/-! ### Turns -/

/-- Whose turn it is: when the environment has offered nothing more, only the sequencer can move (log 2). -/
def State.nextTurn (s : State) : Turn :=
  match s.schedule with
  | t :: _ => t
  | [] => .sequencer

/-- The state with the next turn taken out of the schedule. -/
def State.popTurn (s : State) : State := { s with schedule := s.schedule.tail }

/-- The events of one clock cycle in the hardware's fixed order: Reset, Clear, RxByte, Tick, sequencer step (00_scope.md R7). -/
def Cycle.turns (c : Cycle) : List Turn :=
  (if c.reset then [.reset] else []) ++ (if c.clear then [.clear] else [])
    ++ (match c.rxByte with | some b => [.rxByte b] | none => [])
    ++ (if c.tick then [.tick] else []) ++ (if c.sequencer then [.sequencer] else [])

/-- The environment offers the events of one clock cycle after what it offered before. -/
def State.offerCycle (c : Cycle) (s : State) : State := { s with schedule := s.schedule ++ c.turns }

/-- The optional status port: `frame_ready` and `phase` (00_scope.md R5). -/
def State.status (s : State) : Bool × Phase := (s.frameReady, s.phase)

/-! ### Fetching -/

/-- What the decoder answers for the candidate frame in the buffer. -/
def State.fetch (s : State) : Decoded := decode s.config s.bufBytes

/-- A whole frame received, declared complete and taken up by SeqStart: the state in which the next sequencer turn decodes and
executes it. The parts beyond the buffer are those the reception of the frame leaves (10_state.md R29 c, e). -/
def State.withFrame (bytes : List Byte) (s : State) : State :=
  { s with
    buf := Memory.ofBytes (bytes.take s.config.cap)
    tail := min bytes.length s.config.cap
    receiving := false
    idleTicks := s.config.idleThreshold + 1
    frameReady := true
    phase := .decoding
    schedule := .sequencer :: s.schedule }

/-- The state in which the next sequencer turn emits the ACK with the given pair. -/
def State.withPendingAck (cmd res : Byte) (s : State) : State :=
  { s with
    receiving := false
    idleTicks := s.config.idleThreshold + 1
    frameReady := true
    phase := .ackPending
    ackCmd := cmd
    ackRes := res
    schedule := .sequencer :: s.schedule }

end Sys2Proof.Machine
end

