-- ==== Sys2Proof/Machine/Ack.lean ====
section
/-! DEFINITION. The ACK frame in both directions: received (42_command_dispatch.md R105) and emitted (43_ack_encoder.md). -/

namespace Sys2Proof.Machine

/-- ACK received, CMD 0xFF (R105): accepted silently, no action, result OK. -/
def execAckRx (_payload : List Byte) (s : State) : Host.Outcome State Fault Refusal := .next (s.takeResult .ok)

/-- ACK emitted: the step SeqAck (44_sequencer.md R123) with the pair to send. One TxSend of the ten bytes (43_ack_encoder.md R114),
then the receiver is cleared and the phase returns to IDLE. -/
def execAckTx (cmd res : Byte) (s : State) : Host.Outcome State Fault Refusal :=
  .next (s.txSend (ackFrame cmd res)).endService

end Sys2Proof.Machine
end

