-- ==== Sys2Proof/Machine/Reserved.lean ====
section
/-! DEFINITION. The reserved commands 0x03..0xFE (42_command_dispatch.md R106): accepted silently, no action, result OK. The command
byte is echoed, so its open bits matter to the ACK; they are read from `buf[2]` as for every frame (44_sequencer.md R122). -/

namespace Sys2Proof.Machine

/-- RSVD, CMD 0x03 (R106). -/
def execRsvd03 (_payload : List Byte) (s : State) : Host.Outcome State Fault Refusal := .next (s.takeResult .ok)

/-- RSVD, CMD 0x04..0x07 (R106). -/
def execRsvd04_07 (_low : BitVec 2) (_payload : List Byte) (s : State) : Host.Outcome State Fault Refusal := .next (s.takeResult .ok)

/-- RSVD, CMD 0x08..0x0F (R106). -/
def execRsvd08_0F (_low : BitVec 3) (_payload : List Byte) (s : State) : Host.Outcome State Fault Refusal := .next (s.takeResult .ok)

/-- RSVD, CMD 0x10..0x1F (R106). -/
def execRsvd10_1F (_low : BitVec 4) (_payload : List Byte) (s : State) : Host.Outcome State Fault Refusal := .next (s.takeResult .ok)

/-- RSVD, CMD 0x20..0x3F (R106). -/
def execRsvd20_3F (_low : BitVec 5) (_payload : List Byte) (s : State) : Host.Outcome State Fault Refusal := .next (s.takeResult .ok)

/-- RSVD, CMD 0x40..0x7F (R106). -/
def execRsvd40_7F (_low : BitVec 6) (_payload : List Byte) (s : State) : Host.Outcome State Fault Refusal := .next (s.takeResult .ok)

/-- RSVD, CMD 0x80..0xBF (R106). -/
def execRsvd80_BF (_low : BitVec 6) (_payload : List Byte) (s : State) : Host.Outcome State Fault Refusal := .next (s.takeResult .ok)

/-- RSVD, CMD 0xC0..0xDF (R106). -/
def execRsvdC0_DF (_low : BitVec 5) (_payload : List Byte) (s : State) : Host.Outcome State Fault Refusal := .next (s.takeResult .ok)

/-- RSVD, CMD 0xE0..0xEF (R106). -/
def execRsvdE0_EF (_low : BitVec 4) (_payload : List Byte) (s : State) : Host.Outcome State Fault Refusal := .next (s.takeResult .ok)

/-- RSVD, CMD 0xF0..0xF7 (R106). -/
def execRsvdF0_F7 (_low : BitVec 3) (_payload : List Byte) (s : State) : Host.Outcome State Fault Refusal := .next (s.takeResult .ok)

/-- RSVD, CMD 0xF8..0xFB (R106). -/
def execRsvdF8_FB (_low : BitVec 2) (_payload : List Byte) (s : State) : Host.Outcome State Fault Refusal := .next (s.takeResult .ok)

/-- RSVD, CMD 0xFC..0xFD (R106). -/
def execRsvdFC_FD (_low : BitVec 1) (_payload : List Byte) (s : State) : Host.Outcome State Fault Refusal := .next (s.takeResult .ok)

/-- RSVD, CMD 0xFE (R106). -/
def execRsvdFE (_payload : List Byte) (s : State) : Host.Outcome State Fault Refusal := .next (s.takeResult .ok)

end Sys2Proof.Machine
end

