-- ==== Sys2Proof/Machine/Session.lean ====
section
/-! DEFINITION. The session commands DATA, BEGIN and END (42_command_dispatch.md sections 2 to 4). Each is the second half of
SeqExecute: the command's effect and its result taken (44_sequencer.md R122). -/

namespace Sys2Proof.Machine

/-- DATA (R100, R101, R110): one StoreWrite of the payload at `baseOffset +_32 bytesStored`; the answer decides the result and the
count. -/
def execData (payload : List Byte) (s : State) : Host.Outcome State Fault Refusal :=
  let written := s.storeAnswer
  let t := s.storeWrite s.dataOffset payload
  .next ({ t with bytesStored := bytesStoredAfter s.bytesStored written payload.length }.takeResult
    (writeResult written payload.length))

/-- BEGIN (R102, R103): the offset is read from buffer bytes 5..8 whatever the payload's length is. -/
def execBegin (_payload : List Byte) (s : State) : Host.Outcome State Fault Refusal :=
  .next ({ s with baseOffset := s.beginOffset, bytesStored := 0 }.takeResult .ok)

/-- END (R104): a no-op. -/
def execEnd (_payload : List Byte) (s : State) : Host.Outcome State Fault Refusal := .next (s.takeResult .ok)

end Sys2Proof.Machine
end

