-- ==== Sys2Proof/Machine/Dispatch.lean ====
section
/-! DEFINITION. One arm per instruction. -/

namespace Sys2Proof.Machine

def exec (i : Instr) (s : State) : Host.Outcome State Fault Refusal :=
  match i with
  | .data payload => Sys2Proof.Machine.execData payload s
  | .begin payload => Sys2Proof.Machine.execBegin payload s
  | .end_ payload => Sys2Proof.Machine.execEnd payload s
  | .rsvd03 payload => Sys2Proof.Machine.execRsvd03 payload s
  | .rsvd04_07 low payload => Sys2Proof.Machine.execRsvd04_07 low payload s
  | .rsvd08_0F low payload => Sys2Proof.Machine.execRsvd08_0F low payload s
  | .rsvd10_1F low payload => Sys2Proof.Machine.execRsvd10_1F low payload s
  | .rsvd20_3F low payload => Sys2Proof.Machine.execRsvd20_3F low payload s
  | .rsvd40_7F low payload => Sys2Proof.Machine.execRsvd40_7F low payload s
  | .rsvd80_BF low payload => Sys2Proof.Machine.execRsvd80_BF low payload s
  | .rsvdC0_DF low payload => Sys2Proof.Machine.execRsvdC0_DF low payload s
  | .rsvdE0_EF low payload => Sys2Proof.Machine.execRsvdE0_EF low payload s
  | .rsvdF0_F7 low payload => Sys2Proof.Machine.execRsvdF0_F7 low payload s
  | .rsvdF8_FB low payload => Sys2Proof.Machine.execRsvdF8_FB low payload s
  | .rsvdFC_FD low payload => Sys2Proof.Machine.execRsvdFC_FD low payload s
  | .rsvdFE payload => Sys2Proof.Machine.execRsvdFE payload s
  | .ackRx payload => Sys2Proof.Machine.execAckRx payload s
  | .ackTx cmd res => Sys2Proof.Machine.execAckTx cmd res s

end Sys2Proof.Machine
end

