-- ==== Sys2Proof/Machine/Step.lean ====
section
/-! DEFINITION. One step of an execution (00_scope.md R6): the next turn is taken out of the schedule and applied whole. -/

namespace Sys2Proof.Machine

/-- The sequencer's turn (44_sequencer.md R120): SeqStart in IDLE; in DECODING the candidate frame is decoded and, if valid,
executed; in ACK_PENDING the pending ACK is emitted. -/
def sequencerStep (s : State) : Host.Outcome State Fault Refusal :=
  match s.phase with
  | .idle => .next s.seqStart
  | .decoding =>
    match s.fetch with
    | .valid i => exec i s
    | .invalid .indexOutOfRange => .fault .bufferIndexOutOfRange
    | .invalid _ => .next s.raiseVerificationError
  | .ackPending => exec (.ackTx s.ackCmd s.ackRes) s

/-- One event or one sequencer step, atomic (00_scope.md R6). A turn with nothing enabled changes nothing but the schedule. -/
def step (s : State) : Host.Outcome State Fault Refusal :=
  match s.nextTurn with
  | .reset => .next s.popTurn.resetBlock
  | .clear => .next s.popTurn.clear
  | .rxByte b => .next (s.popTurn.rxByte b)
  | .tick => .next s.popTurn.tick
  | .sequencer => sequencerStep s.popTurn

/-- The state whose very next step runs the instruction a table word stands for (log 9): an RXF row's frame lies in the buffer,
declared complete and taken up; the row ACK_TX is the pair waiting to be acknowledged. -/
def State.withFetchWord (s : State) (nbits w : Nat) : State :=
  if nbits = ackTxBits then s.withPendingAck (wordByte w 5) (wordByte w 6)
  else s.withFrame (tableFrame nbits w)

end Sys2Proof.Machine
end

