-- ==== Sys2Proof/Safety.lean ====
section
/-! DEFINITION. What a safe state is, and the words the statements use for what an instruction leaves alone. -/

namespace Sys2Proof.Machine

/-- The environment (or the scheduler) puts one turn before every turn it offered already. -/
def State.offer (t : Turn) (s : State) : State := { s with schedule := t :: s.schedule }

/-- The execution in which the given turns happen one after another (00_scope.md R6), before the turns already offered. -/
def runTurns : List Turn → State → Host.Outcome State Fault Refusal
  | [], s => .next s
  | t :: ts, s =>
    match step (s.offer t) with
    | .next s' => runTurns ts s'
    | .fault r => .fault r
    | .refused r => .refused r

/-- Instructions executed one after another. -/
def execAll : List Instr → State → Host.Outcome State Fault Refusal
  | [], s => .next s
  | i :: is, s =>
    match exec i s with
    | .next s' => execAll is s'
    | .fault r => .fault r
    | .refused r => .refused r

/-- A byte or a tick: what the link and the timer may do at any moment. -/
def Turn.isByteOrTick : Turn → Bool
  | .rxByte _ | .tick => true
  | _ => false

/-- An input event other than Reset. -/
def Turn.isInput : Turn → Bool
  | .rxByte _ | .tick | .clear => true
  | _ => false

/-- The block is at rest: no sequencer step is enabled (00_scope.md R9). -/
def State.AtRest (s : State) : Prop := s.phase = .idle ∧ s.frameReady = false

/-- The invariants of 10_state.md R29, clause by clause, with the buffer's canonical form and its bound. -/
structure State.Safe (s : State) : Prop where
  buf_wf : s.buf.wf = true
  buf_below : s.buf.below s.config.cap = true
  /-- (a) -/
  tail_le : s.tail ≤ s.config.cap
  /-- (b) -/
  not_both : ¬(s.receiving = true ∧ s.frameReady = true)
  /-- (c) -/
  idle_le : s.idleTicks ≤ s.config.idleThreshold + 1
  idle_iff : s.idleTicks = s.config.idleThreshold + 1 ↔ s.frameReady = true
  /-- (d) -/
  receiving_tail : s.receiving = true → 1 ≤ s.tail ∧ s.idleTicks ≤ s.config.idleThreshold
  /-- (e) -/
  busy : s.phase ≠ .idle → s.frameReady = true ∧ s.receiving = false
  /-- (f) -/
  empty : s.frameReady = false → s.receiving = false → s.tail = 0 ∧ s.idleTicks = 0 ∧ ∀ i, s.buf.read i = 0x00
  /-- (g) -/
  ackRes_legal : isResultCode s.ackRes = true

/-- The receiver's fields and every byte of the buffer are as before. -/
structure State.ReceiverUnchanged (s t : State) : Prop where
  buf : ∀ i, t.buf.read i = s.buf.read i
  tail : t.tail = s.tail
  receiving : t.receiving = s.receiving
  idleTicks : t.idleTicks = s.idleTicks
  frameReady : t.frameReady = s.frameReady

/-- The receiver is empty, as after `ClearReceiver` (40_receive_buffer_and_timer.md R79). -/
structure State.ReceiverCleared (t : State) : Prop where
  buf : ∀ i, t.buf.read i = 0x00
  tail : t.tail = 0
  receiving : t.receiving = false
  idleTicks : t.idleTicks = 0
  frameReady : t.frameReady = false

/-- The session registers are as before (42_command_dispatch.md R108). -/
structure State.SessionUnchanged (s t : State) : Prop where
  baseOffset : t.baseOffset = s.baseOffset
  bytesStored : t.bytesStored = s.bytesStored

/-- The sequencer's registers are as before. -/
structure State.SequencerUnchanged (s t : State) : Prop where
  phase : t.phase = s.phase
  ackCmd : t.ackCmd = s.ackCmd
  ackRes : t.ackRes = s.ackRes

/-- Nothing was requested: no output, no storage answer used. -/
structure State.NothingRequested (s t : State) : Prop where
  outputs : t.outputs = s.outputs
  storeAnswers : t.storeAnswers = s.storeAnswers
  draws : t.draws = s.draws

/-- The parameters and the turns still to come are as before. -/
structure State.EnvironmentKept (s t : State) : Prop where
  config : t.config = s.config
  schedule : t.schedule = s.schedule

end Sys2Proof.Machine
end

