-- ==== Sys2Proof/Certificates/Slice0/Obligations.lean ====
section
/-! DEFINITION. The statements for the provers. `step (s.offer t)` is the step in which the turn `t` happens in the state `s`. The spec
marks many of its rules as its own decision (92_eei_decisions.md D<n>) or as derived; a statement that rests on one names it. The fields
`schedule` (log 1), `storeAnswers` and `draws` (log 3) and `config` (log 5) are the model's own, so what a statement says of them
(`NothingRequested`, `EnvironmentKept`, the answer `storeAnswer`) is the model's too; `exec` does not look at the phase (log 19). -/

open Sys2Proof Sys2Proof.Machine

/-! ### Encoding -/

/-- Decoding what was encoded gives the instruction back, with every operand at every value the encoding admits, whatever follows
the frame in the buffer and in every configuration (first clause: 30_encoding.md R57's round-trip law, 41_frame_decoder.md R95 a). The
second clause, for the emitted ACK, is the model's choice (log 10): `decodeTx` is a reader of its own, since the block never decodes what
it emits and its decoder reads those bytes as a received ACK (43_ack_encoder.md R115). -/
def Obligations.DecodeOfEncodeGivesTheInstructionBack : Prop :=
  ∀ (c : Config) (i : Instr) (rest : List Byte), i.wellFormed c = true →
    (i.isReceived = true → decode c (encode i ++ rest) = .valid i) ∧
    (i.isReceived = false → decodeTx (encode i) = .valid i)

/-- The decoder accepts nothing but the encodings of well-formed instructions; the one exception is `clamp`, under which a frame that
declares more than MAX_PAYLOAD is read at the clamped length (41_frame_decoder.md R87, the spec's decision D7). -/
def Obligations.DecodeAcceptsOnlyEncodings : Prop :=
  ∀ (c : Config) (bs : List Byte) (i : Instr), decode c bs = .valid i →
    i.isReceived = true ∧ i.wellFormed c = true ∧
    ((∃ rest, bs = encode i ++ rest) ∨ (c.overlenPolicy = .clamp ∧ c.maxPayload < be16 (bs.getD 3 0) (bs.getD 4 0)))

/-- 30_encoding.md R54: the command byte selects the operation, all 256 values are decoded, none is illegal. The thirteen reserved rows
are the aligned blocks of opcode_table.json. -/
def Obligations.EveryCommandByteSelectsItsRow : Prop :=
  (∀ p, ofCmd 0x00 p = .data p) ∧ (∀ p, ofCmd 0x01 p = .begin p) ∧ (∀ p, ofCmd 0x02 p = .end_ p) ∧
  (∀ p, ofCmd 0xFF p = .ackRx p) ∧
  (∀ (c : Byte) (p : List Byte), 0x03 ≤ c.toNat → c.toNat ≤ 0xFE →
    (ofCmd c p).cmd = c ∧ (ofCmd c p).payload = p ∧
    ((c = 0x03 ∧ ofCmd c p = .rsvd03 p) ∨ (0x04 ≤ c.toNat ∧ c.toNat ≤ 0x07 ∧ ∃ l, ofCmd c p = .rsvd04_07 l p) ∨
    (0x08 ≤ c.toNat ∧ c.toNat ≤ 0x0F ∧ ∃ l, ofCmd c p = .rsvd08_0F l p) ∨
    (0x10 ≤ c.toNat ∧ c.toNat ≤ 0x1F ∧ ∃ l, ofCmd c p = .rsvd10_1F l p) ∨
    (0x20 ≤ c.toNat ∧ c.toNat ≤ 0x3F ∧ ∃ l, ofCmd c p = .rsvd20_3F l p) ∨
    (0x40 ≤ c.toNat ∧ c.toNat ≤ 0x7F ∧ ∃ l, ofCmd c p = .rsvd40_7F l p) ∨
    (0x80 ≤ c.toNat ∧ c.toNat ≤ 0xBF ∧ ∃ l, ofCmd c p = .rsvd80_BF l p) ∨
    (0xC0 ≤ c.toNat ∧ c.toNat ≤ 0xDF ∧ ∃ l, ofCmd c p = .rsvdC0_DF l p) ∨
    (0xE0 ≤ c.toNat ∧ c.toNat ≤ 0xEF ∧ ∃ l, ofCmd c p = .rsvdE0_EF l p) ∨
    (0xF0 ≤ c.toNat ∧ c.toNat ≤ 0xF7 ∧ ∃ l, ofCmd c p = .rsvdF0_F7 l p) ∨
    (0xF8 ≤ c.toNat ∧ c.toNat ≤ 0xFB ∧ ∃ l, ofCmd c p = .rsvdF8_FB l p) ∨
    (0xFC ≤ c.toNat ∧ c.toNat ≤ 0xFD ∧ ∃ l, ofCmd c p = .rsvdFC_FD l p) ∨ (c = 0xFE ∧ ofCmd c p = .rsvdFE p)))

/-- Frames written out byte by byte from the spec's layout decode to the instruction they stand for (95_test_vectors.md V1 to V3). -/
def Obligations.WrittenOutFramesDecode : Prop :=
  decode Config.reference [0xC5, 0x5C, 0x02, 0x00, 0x00, 0x02, 0x5A, 0xA5] = .valid (.end_ []) ∧
  decode Config.reference [0xC5, 0x5C, 0x01, 0x00, 0x04, 0x00, 0x00, 0x10, 0x00, 0x15, 0x5A, 0xA5] =
    .valid (.begin [0x00, 0x00, 0x10, 0x00]) ∧
  decode Config.reference [0xC5, 0x5C, 0x00, 0x00, 0x04, 0xAA, 0xBB, 0xCC, 0xDD, 0x04, 0x5A, 0xA5] =
    .valid (.data [0xAA, 0xBB, 0xCC, 0xDD]) ∧
  decode Config.reference [0xC5, 0x5C, 0x7E, 0x00, 0x00, 0x7E, 0x5A, 0xA5] = .valid (.rsvd40_7F 0x3E []) ∧
  decode Config.reference [0xC5, 0x5C, 0xFF, 0x00, 0x02, 0x01, 0x00, 0xFC, 0x5A, 0xA5] = .valid (.ackRx [0x01, 0x00])

/-- The emitted ACK, its ten bytes written out, is itself a valid frame for the decoder (43_ack_encoder.md R115, derived by the spec),
in every configuration and whatever follows it. -/
def Obligations.EmittedAckDecodesAsReceivedAck : Prop :=
  ∀ (c : Config) (cc rr : Byte) (rest : List Byte),
    decode c ([0xC5, 0x5C, 0xFF, 0x00, 0x02, cc, rr, 0xFD ^^^ cc ^^^ rr, 0x5A, 0xA5] ++ rest) = .valid (.ackRx [cc, rr])

/-! ### The decoder -/

/-- `Decode` as 41_frame_decoder.md R93 writes it, by buffer indices: the command and the length of a valid frame. -/
def decodeByIndex (c : Config) (buf : Nat → Byte) : Option (Byte × Nat) :=
  if buf 0 ≠ head1 ∨ buf 1 ≠ head2 then none
  else if c.maxPayload < (buf 3).toNat * 256 + (buf 4).toNat ∧ c.overlenPolicy = .reject then none
  else
    let len := min ((buf 3).toNat * 256 + (buf 4).toNat) c.maxPayload
    if (List.range (3 + len)).foldl (fun x k => x ^^^ buf (2 + k)) 0x00 ≠ buf (5 + len) then none
    else if buf (6 + len) ≠ tail1 ∨ buf (7 + len) ≠ tail2 then none
    else some (buf 2, len)

/-- 41_frame_decoder.md R93, for every buffer and every configuration: the decoder accepts exactly what the pseudocode accepts, with
its command and the payload slice `buf[5 .. 5+LEN)`, and every rejection is one of the four checks. -/
def Obligations.DecoderFollowsItsPseudocode : Prop :=
  ∀ s : State,
    (∀ cmd len, decodeByIndex s.config s.buf.read = some (cmd, len) →
      s.fetch = .valid (ofCmd cmd ((List.range len).map fun k => s.buf.read (5 + k)))) ∧
    (decodeByIndex s.config s.buf.read = none →
      s.fetch = .invalid .headMismatch ∨ s.fetch = .invalid .lengthTooLarge ∨ s.fetch = .invalid .checksumMismatch ∨
      s.fetch = .invalid .trailerMismatch)

/-- Every index the decoder forms lies in the buffer (41_frame_decoder.md R92, derived by the spec; 93_implementation_defined.md U1). -/
def Obligations.DecoderNeverLeavesTheBuffer : Prop := ∀ s : State, s.fetch ≠ .invalid .indexOutOfRange

/-- The bytes of a frame by its fields, with the length bytes of the payload and any sentinels and checksum (30_encoding.md R51). -/
def frameWith (h1 h2 cmd : Byte) (p : List Byte) (bcc t1 t2 : Byte) : List Byte :=
  [h1, h2, cmd, BitVec.ofNat 8 (p.length / 256), BitVec.ofNat 8 p.length] ++ p ++ [bcc, t1, t2]

/-- The checksum the layout gives a frame (30_encoding.md R53). -/
def frameChecksum (cmd : Byte) (p : List Byte) : Byte :=
  xorFold ([cmd, BitVec.ofNat 8 (p.length / 256), BitVec.ofNat 8 p.length] ++ p)

/-- Wrong sentinels, one or several, are always reported, whatever the checksum byte (41_frame_decoder.md R95 b, derived by the spec): a
wrong head by check 1; a wrong trailer behind a right head by check 4, or by check 3 where the checksum is wrong as well (the order of
R84). With the right sentinels and checksum the bytes are the encoder's. -/
def Obligations.SentinelCorruptionIsAlwaysReported : Prop :=
  ∀ (c : Config) (cmd : Byte) (p rest : List Byte), p.length ≤ c.maxPayload →
    frameWith head1 head2 cmd p (frameChecksum cmd p) tail1 tail2 = encodeFrame cmd p ∧
    ∀ h1 h2 bcc t1 t2 : Byte, h1 ≠ head1 ∨ h2 ≠ head2 ∨ t1 ≠ tail1 ∨ t2 ≠ tail2 →
      decode c (frameWith h1 h2 cmd p bcc t1 t2 ++ rest) = .invalid
        (if h1 ≠ head1 ∨ h2 ≠ head2 then .headMismatch
        else if bcc ≠ frameChecksum cmd p then .checksumMismatch
        else .trailerMismatch)

/-- Any change of one byte, so of any one bit, among the command, the payload and the checksum makes the checksum check fail, the
length bytes being intact (41_frame_decoder.md R95 c, derived by the spec). -/
def Obligations.OneCorruptedByteFailsTheChecksum : Prop :=
  ∀ (c : Config) (cmd : Byte) (p rest : List Byte) (k : Nat) (v : Byte), p.length ≤ c.maxPayload →
    (k = 2 ∨ (5 ≤ k ∧ k ≤ 5 + p.length)) → (encodeFrame cmd p)[k]? ≠ some v →
    decode c ((encodeFrame cmd p).set k v ++ rest) = .invalid .checksumMismatch

/-- A frame of which not every byte was received is never accepted: the rest of the buffer is zero (41_frame_decoder.md R97 c, derived
by the spec; zero fill is its decision D8). -/
def Obligations.TruncatedFrameIsRejected : Prop :=
  ∀ (c : Config) (cmd : Byte) (p : List Byte) (n : Nat), p.length ≤ c.maxPayload → n < 8 + p.length →
    ∃ e, decode c ((encodeFrame cmd p).take n ++ List.replicate (c.cap - n) 0x00) = .invalid e ∧ e ≠ .indexOutOfRange

/-! ### The receiver -/

/-- A byte is dropped without effect while a complete frame waits (40_receive_buffer_and_timer.md R72, the spec's decision D5);
otherwise it is stored at the cursor, which a full buffer wraps first, so that the cursor rests at CAP after CAP bytes (R71 and R73, its
decision D4), and the receiver is marked active with its counter at zero. Nothing else changes. -/
def Obligations.RxByteIsStoredOrDropped : Prop :=
  ∀ (s : State) (b : Byte), s.buf.wf = true →
    (s.frameReady = true → step (s.offer (.rxByte b)) = .next s) ∧
    (s.frameReady = false → ∃ t, step (s.offer (.rxByte b)) = .next t ∧
      (∀ i, t.buf.read i = if i = (if s.config.cap ≤ s.tail then 0 else s.tail) then b else s.buf.read i) ∧
      t.tail = (if s.config.cap ≤ s.tail then 0 else s.tail) + 1 ∧ t.receiving = true ∧ t.idleTicks = 0 ∧ t.frameReady = false ∧
      s.SequencerUnchanged t ∧ s.SessionUnchanged t ∧ s.NothingRequested t ∧ s.EnvironmentKept t)

/-- 40_receive_buffer_and_timer.md R75: a tick while nothing is being received does nothing. -/
def Obligations.TickWithoutReceptionDoesNothing : Prop :=
  ∀ s : State, s.receiving = false → step (s.offer .tick) = .next s

/-- 40_receive_buffer_and_timer.md R76, with the comparison where the spec's decision D3 puts it: the counter is incremented, and the
frame is declared complete when the counter then exceeds the threshold. -/
def Obligations.TickCountsThenDeclaresTheFrame : Prop :=
  ∀ s : State, s.receiving = true →
    (s.idleTicks < s.config.idleThreshold → step (s.offer .tick) = .next { s with idleTicks := s.idleTicks + 1 }) ∧
    (s.idleTicks = s.config.idleThreshold → step (s.offer .tick) =
      .next { s with idleTicks := s.config.idleThreshold + 1, frameReady := true, receiving := false })

/-- After the last accepted byte it takes exactly IDLE_THRESHOLD + 1 ticks, and further ticks change nothing
(40_receive_buffer_and_timer.md R81, derived by the spec from its decision D3). -/
def Obligations.QuietPeriodIsThresholdPlusOneTicks : Prop :=
  ∀ (s : State) (n : Nat), s.receiving = true → s.idleTicks = 0 → s.frameReady = false →
    runTurns (List.replicate n .tick) s = .next { s with
      receiving := decide (n ≤ s.config.idleThreshold)
      frameReady := decide (s.config.idleThreshold < n)
      idleTicks := min n (s.config.idleThreshold + 1) }

/-- Contents after any number of bytes in one accumulation cycle: the stream lies over the buffer in laps
(40_receive_buffer_and_timer.md R80, derived by the spec). When the cursor wraps is the spec's decision D4; that an index nothing fell
on reads 0x00 is its decision D8 (20_memory.md R49, log 13). -/
def Obligations.OverflowLaysTheStreamInLaps : Prop :=
  ∀ (s : State) (d : List Byte), s.buf = [] → s.tail = 0 → s.frameReady = false →
    ∃ t, runTurns (d.map .rxByte) s = .next t ∧ t.frameReady = false ∧
      t.tail = (if d.length ≤ s.config.cap then d.length else (d.length - 1) % s.config.cap + 1) ∧
      (∀ i j, i < s.config.cap → j < d.length → j % s.config.cap = i →
        (∀ k, j < k → k < d.length → k % s.config.cap ≠ i) → t.buf.read i = d.getD j 0x00) ∧
      (∀ i, (∀ j, j < d.length → j % s.config.cap ≠ i) → t.buf.read i = 0x00)

/-- `Clear` empties the receiver in IDLE and is ignored in the other phases (40_receive_buffer_and_timer.md R78 and R79, the spec's
decisions D14 and D8); it leaves everything else alone. -/
def Obligations.ClearIsHonouredInIdleOnly : Prop :=
  ∀ s : State,
    (s.phase = .idle → ∃ t, step (s.offer .clear) = .next t ∧ t.ReceiverCleared ∧ s.SequencerUnchanged t ∧
      s.SessionUnchanged t ∧ s.NothingRequested t ∧ s.EnvironmentKept t) ∧
    (s.phase ≠ .idle → step (s.offer .clear) = .next s)

/-- Only a Tick raises frameReady and only the receiver clear lowers it; a true value makes a byte be dropped and enables SeqStart; it is
false after reset (10_state.md R17). Of the turns that clear, a Clear acts in IDLE alone (40_receive_buffer_and_timer.md R78, the spec's
decision D14), SeqAck in ACK_PENDING (44_sequencer.md R123) and a Reset always (70_reset_and_hazards.md R153, its decision D13, as is
the value after reset); the zeroed bytes are its decision D8 (R79) and the drop without effect its decision D5 (R72). -/
def Obligations.FrameReadyRisesByTickAndFallsByClear : Prop :=
  (∀ s s' : State, step s = .next s' → s.frameReady = false → s'.frameReady = true →
    s.nextTurn = .tick ∧ s.receiving = true ∧ s'.receiving = false) ∧
  (∀ s s' : State, step s = .next s' → s.frameReady = true → s'.frameReady = false →
    s'.ReceiverCleared ∧ (s.nextTurn = .reset ∨ (s.nextTurn = .clear ∧ s.phase = .idle) ∨
      (s.nextTurn = .sequencer ∧ s.phase = .ackPending))) ∧
  (∀ (s : State) (b : Byte), s.frameReady = true → step (s.offer (.rxByte b)) = .next s) ∧
  (∀ s : State, s.phase = .idle →
    ∃ t, step (s.offer .sequencer) = .next t ∧ (t.phase = .decoding ↔ s.frameReady = true)) ∧
  State.reset.frameReady = false

/-- While a complete frame waits or is under service no step changes the buffer but the receiver clear, which ends that window, and a
byte that arrives in it is lost (20_memory.md R47). The clear comes from SeqAck (44_sequencer.md R123), from a Clear in IDLE and in no
other phase (40_receive_buffer_and_timer.md R78, the spec's decision D14) or from a Reset (70_reset_and_hazards.md R153, its decision
D13); the zeroed bytes are its decision D8 (R79) and the drop without effect its decision D5 (R72). -/
def Obligations.BufferIsFrozenWhileFrameReady : Prop :=
  (∀ s s' : State, s.frameReady = true → step s = .next s' →
    (s'.frameReady = true ∧ s'.buf = s.buf) ∨
    (s'.ReceiverCleared ∧ (s.nextTurn = .reset ∨ (s.nextTurn = .clear ∧ s.phase = .idle) ∨
      (s.nextTurn = .sequencer ∧ s.phase = .ackPending)))) ∧
  (∀ (s : State) (b : Byte), s.frameReady = true → step (s.offer (.rxByte b)) = .next s)

/-- A byte and a tick of the same clock cycle: the byte is applied first (00_scope.md R7), with the outcomes the table of
70_reset_and_hazards.md R166 gives for both orders (the spec's decision D2; the drop of a byte without effect is its decision D5, the
tick that reaches the threshold its decision D3). -/
def Obligations.ByteBeforeTickInOneCycle : Prop :=
  ∀ (s : State) (b : Byte), s.Safe →
    Cycle.turns { rxByte := some b, tick := true } = [.rxByte b, .tick] ∧
    (s.frameReady = true → runTurns [.rxByte b, .tick] s = .next s ∧ runTurns [.tick, .rxByte b] s = .next s) ∧
    (s.frameReady = false → ∃ t, runTurns [.rxByte b, .tick] s = .next t ∧
      t.idleTicks = 1 ∧ t.receiving = true ∧ t.frameReady = false ∧ t.buf = s.buf.write s.writeCursor b) ∧
    (s.frameReady = false → s.idleTicks < s.config.idleThreshold → ∃ t, runTurns [.tick, .rxByte b] s = .next t ∧
      t.idleTicks = 0 ∧ t.receiving = true ∧ t.frameReady = false ∧ t.buf = s.buf.write s.writeCursor b) ∧
    (s.frameReady = false → s.idleTicks = s.config.idleThreshold → ∃ t, runTurns [.tick, .rxByte b] s = .next t ∧
      t.receiving = false ∧ t.frameReady = true ∧ t.buf = s.buf)

/-! ### The sequencer -/

/-- 44_sequencer.md R121: SeqStart is enabled by frameReady and writes the phase only; otherwise the sequencer waits. -/
def Obligations.SeqStartWaitsForFrameReady : Prop :=
  ∀ s : State, s.phase = .idle →
    (s.frameReady = true → step (s.offer .sequencer) = .next { s with phase := .decoding }) ∧
    (s.frameReady = false → step (s.offer .sequencer) = .next s)

/-- A step runs the decoded instruction: in DECODING the frame the decoder reads from the buffer's bytes, in ACK_PENDING the ACK frame
with the latched pair, as an instruction of the model (log 10). The step adds nothing around `exec` but taking its turn out of the
schedule. -/
def Obligations.StepRunsTheDecodedInstruction : Prop :=
  (∀ (s : State) (i : Instr), s.phase = .decoding → decode s.config (s.buf.readRange 0 s.config.cap) = .valid i →
    step (s.offer .sequencer) = exec i s) ∧
  (∀ s : State, s.phase = .ackPending → step (s.offer .sequencer) = exec (.ackTx s.ackCmd s.ackRes) s)

/-- SeqExecute latches buf[2] and the result and moves to ACK_PENDING; it leaves the receiver alone; it issues one StoreWrite exactly when
the frame is a valid DATA; an invalid frame has the verification error latched, touches neither the session nor a port, and echoes buf[2]
too (44_sequencer.md R122; 43_ack_encoder.md R116, the spec's decision D12). The frame is decoded once: the next sequencer step, SeqAck,
clears it (R123; zeroed bytes by the spec's decision D8). That both steps complete, their requests answered, is the model's choice
(log 7; 00_scope.md R11): on a platform that hangs they do not. -/
def Obligations.SeqExecuteLatchesAndMovesOn : Prop :=
  ∀ s : State, s.phase = .decoding → ∃ t, step (s.offer .sequencer) = .next t ∧
    t.ackCmd = s.buf.read 2 ∧ t.phase = .ackPending ∧ s.ReceiverUnchanged t ∧ s.EnvironmentKept t ∧
    (∀ e, s.fetch = .invalid e → t.ackRes = 0x01 ∧ s.SessionUnchanged t ∧ s.NothingRequested t) ∧
    (∀ i, s.fetch = .valid i → exec i s = .next t ∧ (t.ackRes = 0x00 ∨ t.ackRes = 0x02)) ∧
    (∀ p, s.fetch = .valid (.data p) →
      t.outputs = s.outputs ++ [.storeWrite (s.baseOffset + s.bytesStored) p.length p s.storeAnswer]) ∧
    ((∀ p, s.fetch ≠ .valid (.data p)) → s.NothingRequested t) ∧
    (∃ v, step (t.offer .sequencer) = .next v ∧ v.phase = .idle ∧ v.ReceiverCleared)

/-- Every serviced frame ends with exactly one result code, carried in byte 6 of its ACK: 0x01 exactly when verification fails, 0x02
exactly when a valid DATA was answered short, 0x00 otherwise, also for an answer above the request
(60_exceptions.md R132, R134; 42_command_dispatch.md R101, the spec's decision D15). The code 0xFF is never sent (R135, D21). An error leaves the session and completes as a good frame does (R137),
and a failed frame's ACK echoes buf[2] too (43_ack_encoder.md R116, D12). That SeqExecute and SeqAck complete, their requests answered,
is the model's choice (log 7; 00_scope.md R11); the answer is `storeAnswer` (log 3). -/
def Obligations.ResultCodesTellTheOutcome : Prop :=
  ∀ s : State, s.phase = .decoding → ∃ t v, step (s.offer .sequencer) = .next t ∧ step (t.offer .sequencer) = .next v ∧
    v.outputs = t.outputs ++ [.txSend (ackFrame (s.buf.read 2) t.ackRes) 10] ∧
    (ackFrame (s.buf.read 2) t.ackRes)[6]? = some t.ackRes ∧
    (t.ackRes = 0x00 ∨ t.ackRes = 0x01 ∨ t.ackRes = 0x02) ∧
    (t.ackRes = 0x01 ↔ ∃ e, s.fetch = .invalid e) ∧
    (t.ackRes = 0x02 ↔ ∃ p, s.fetch = .valid (.data p) ∧ s.storeAnswer < p.length) ∧
    (t.ackRes ≠ 0x00 → s.SessionUnchanged t ∧ t.ackCmd = s.buf.read 2 ∧ t.phase = .ackPending)

/-- What a DATA frame stores is the payload slice of the buffer, byte for byte, and the storage offset comes from the session registers
(30_encoding.md R61), with the sum modulo 2^32 (R107, the spec's decision D10). Its byte count is `LEN`, bounded by MAX_PAYLOAD where the
policy is `clamp` (41_frame_decoder.md R87, its decision D7). That the step completes, its request answered, is the model's choice
(log 7; 00_scope.md R11); the answer is `storeAnswer` (log 3). -/
def Obligations.DataStoresThePayloadSlice : Prop :=
  ∀ (s : State) (p : List Byte), s.phase = .decoding → s.fetch = .valid (.data p) →
    p = (List.range p.length).map (fun k => s.buf.read (5 + k)) ∧
    p.length = min (be16 (s.buf.read 3) (s.buf.read 4)) s.config.maxPayload ∧
    ∃ t, step (s.offer .sequencer) = .next t ∧
      t.outputs = s.outputs ++ [.storeWrite (s.baseOffset + s.bytesStored) p.length p s.storeAnswer]

/-- The phase follows the one cycle, and a frame that fails verification takes the same steps as a valid one, with Dispatch not called
(44_sequencer.md R124); a Reset returns to IDLE (R131, 70_reset_and_hazards.md R153, the spec's decision D13). That the failed frame's
ACK carries buf[2] is its decision D12 (43_ack_encoder.md R116, log 12). That the three steps complete, the request answered, is the
model's choice (log 7; 00_scope.md R11). -/
def Obligations.PhaseFollowsTheOneCycle : Prop :=
  (∀ s s' : State, step s = .next s' →
    s'.phase = s.phase ∨ (s.nextTurn = .reset ∧ s'.phase = .idle) ∨
    (s.nextTurn = .sequencer ∧ ((s.phase = .idle ∧ s'.phase = .decoding) ∨ (s.phase = .decoding ∧ s'.phase = .ackPending) ∨
      (s.phase = .ackPending ∧ s'.phase = .idle)))) ∧
  (∀ (s : State) (e : DecodeError), s.phase = .idle → s.frameReady = true → s.fetch = .invalid e →
    ∃ t u v, step (s.offer .sequencer) = .next t ∧ step (t.offer .sequencer) = .next u ∧ step (u.offer .sequencer) = .next v ∧
      t.phase = .decoding ∧ u.phase = .ackPending ∧ u.ackRes = 0x01 ∧ v.phase = .idle ∧ s.SessionUnchanged v ∧
      v.outputs = s.outputs ++ [.txSend (ackFrame (s.buf.read 2) 0x01) 10])

/-- During a service no input but Reset changes anything, and in IDLE with a complete frame waiting none but Clear and Reset
(44_sequencer.md R129, derived by the spec from the drop of a byte, its decision D5, and the ignored Clear, its decision D14). -/
def Obligations.InputsDuringAServiceChangeNothing : Prop :=
  (∀ (s : State) (ts : List Turn), s.Safe → s.phase ≠ .idle → (∀ t ∈ ts, t.isInput = true) → runTurns ts s = .next s) ∧
  (∀ (s : State) (ts : List Turn), s.Safe → s.frameReady = true → (∀ t ∈ ts, t.isByteOrTick = true) → runTurns ts s = .next s)

/-- The three sequencer steps may be taken as one atomic service: whatever bytes, ticks and clears come between them, the end state
and the requests are the same (44_sequencer.md R125, derived by the spec from the drop of a byte, its decision D5, and the ignored Clear,
its decision D14). -/
def Obligations.InterruptedServiceEqualsFusedService : Prop :=
  ∀ (s : State) (e₀ e₁ e₂ : List Turn), s.Safe → s.phase = .idle → s.frameReady = true →
    (∀ t ∈ e₀, t.isByteOrTick = true) → (∀ t ∈ e₁, t.isInput = true) → (∀ t ∈ e₂, t.isInput = true) →
    runTurns (e₀ ++ [.sequencer] ++ e₁ ++ [.sequencer] ++ e₂ ++ [.sequencer]) s =
      runTurns [.sequencer, .sequencer, .sequencer] s

/-- Every complete candidate frame, valid or not, is answered with exactly one ACK, which comes after the frame's one StoreWrite if it
is a valid DATA and after nothing otherwise; then the receiver is open again (44_sequencer.md R128, R130, derived by the spec). That the
ACK of a failed frame carries buf[2] is the spec's decision D12 (43_ack_encoder.md R116, log 12); the zeroed bytes of the cleared receiver
are its decision D8 (R79, R123). That every request is answered is the model's choice (log 7; 00_scope.md R11): on a platform that hangs
the service does not end. The answer is `storeAnswer` (log 3). -/
def Obligations.ServiceSendsExactlyOneAck : Prop :=
  ∀ s : State, s.phase = .idle → s.frameReady = true →
    ∃ t r, runTurns [.sequencer, .sequencer, .sequencer] s = .next t ∧
      t.phase = .idle ∧ t.ReceiverCleared ∧ isResultCode r = true ∧
      ((∃ p, s.fetch = .valid (.data p) ∧ t.outputs = s.outputs ++
          [.storeWrite (s.baseOffset + s.bytesStored) p.length p s.storeAnswer, .txSend (ackFrame (s.buf.read 2) r) 10]) ∨
        ((∀ p, s.fetch ≠ .valid (.data p)) ∧ t.outputs = s.outputs ++ [.txSend (ackFrame (s.buf.read 2) r) 10]))

/-- A step issues at most one request: a StoreWrite only in executing a valid DATA, a TxSend only in sending the pending ACK
(43_ack_encoder.md R118, 44_sequencer.md R128, derived by the spec; that the transport's answer leads to no retry is its decision D16).
The answer recorded with a StoreWrite is `storeAnswer` (log 3). -/
def Obligations.RequestsComeOnlyFromTheSequencer : Prop :=
  ∀ s s' : State, step s = .next s' →
    s'.outputs = s.outputs ∨
    (s.nextTurn = .sequencer ∧ s.phase = .decoding ∧ ∃ p, s.fetch = .valid (.data p) ∧
      s'.outputs = s.outputs ++ [.storeWrite (s.baseOffset + s.bytesStored) p.length p s.storeAnswer]) ∨
    (s.nextTurn = .sequencer ∧ s.phase = .ackPending ∧ s'.phase = .idle ∧
      s'.outputs = s.outputs ++ [.txSend (ackFrame s.ackCmd s.ackRes) 10])

/-! ### The instructions -/

/-- DATA (42_command_dispatch.md R100), for every payload, the empty one too (R110, the spec's decision D20), and every answer of the
storage collaborator, above the request too (R101, D15): one StoreWrite of the payload at `baseOffset +_32 bytesStored`; a short answer
gives RES_FULL and leaves bytesStored, any other gives RES_OK and advances it by the answer modulo 2^32 (R107, D10). The frame:
baseOffset, the receiver and every byte of the buffer, the parameters and the schedule are unchanged. The pair latched and the phase are
SeqExecute's (44_sequencer.md R122). The model's choices: the answer is the head of `storeAnswers`, which is used up, or a free value
counted by `draws` (log 3); and the request is answered within the step, so that exec completes (log 7; 00_scope.md R11). -/
def Obligations.DataWritesAndCounts : Prop :=
  ∀ (p : List Byte) (s : State), ∃ t, exec (.data p) s = .next t ∧
    t.outputs = s.outputs ++ [.storeWrite (s.baseOffset + s.bytesStored) p.length p s.storeAnswer] ∧
    t.storeAnswers = s.storeAnswers.tail ∧ t.draws = s.draws + 1 ∧
    (s.storeAnswer < p.length → t.bytesStored = s.bytesStored ∧ t.ackRes = 0x02) ∧
    (p.length ≤ s.storeAnswer → t.bytesStored = s.bytesStored + BitVec.ofNat 32 s.storeAnswer ∧ t.ackRes = 0x00) ∧
    t.baseOffset = s.baseOffset ∧ t.ackCmd = s.buf.read 2 ∧ t.phase = .ackPending ∧
    s.ReceiverUnchanged t ∧ s.EnvironmentKept t

/-- BEGIN (42_command_dispatch.md R102 and R103; big-endian and the reading of buffer bytes 5..8 whatever the payload's length are the
spec's decision D9): the session is set, the result is OK. The frame: the receiver and every byte of the buffer, the ports, the
parameters and the schedule are unchanged. -/
def Obligations.BeginSetsTheSession : Prop :=
  ∀ (p : List Byte) (s : State), ∃ t, exec (.begin p) s = .next t ∧
    t.baseOffset.toNat = (s.buf.read 5).toNat * 2 ^ 24 + (s.buf.read 6).toNat * 2 ^ 16 + (s.buf.read 7).toNat * 2 ^ 8 +
      (s.buf.read 8).toNat ∧
    t.bytesStored = 0 ∧ t.ackRes = 0x00 ∧ t.ackCmd = s.buf.read 2 ∧ t.phase = .ackPending ∧
    s.ReceiverUnchanged t ∧ s.NothingRequested t ∧ s.EnvironmentKept t

/-- What a command with no action leaves (42_command_dispatch.md R104 to R106): the result OK latched, nothing else changed. -/
def AcknowledgedOnly (i : Instr) (s : State) : Prop :=
  ∃ t, exec i s = .next t ∧ t.ackRes = 0x00 ∧ t.ackCmd = s.buf.read 2 ∧ t.phase = .ackPending ∧
    s.ReceiverUnchanged t ∧ s.SessionUnchanged t ∧ s.NothingRequested t ∧ s.EnvironmentKept t

/-- END (42_command_dispatch.md R104): the result is OK and nothing else changes; LEN and payload are ignored. -/
def Obligations.EndOnlyAcknowledges : Prop := ∀ (p : List Byte) (s : State), AcknowledgedOnly (.end_ p) s

/-- A received ACK (42_command_dispatch.md R105, the spec's decision D11) is accepted silently with no action. -/
def Obligations.ReceivedAckOnlyAcknowledges : Prop := ∀ (p : List Byte) (s : State), AcknowledgedOnly (.ackRx p) s

/-- Every reserved command, all thirteen rows and every value of their open bits (42_command_dispatch.md R106, the spec's decision
D11), is accepted silently with no action. -/
def Obligations.ReservedCommandsOnlyAcknowledge : Prop :=
  ∀ (p : List Byte) (s : State),
    AcknowledgedOnly (.rsvd03 p) s ∧ (∀ l, AcknowledgedOnly (.rsvd04_07 l p) s) ∧ (∀ l, AcknowledgedOnly (.rsvd08_0F l p) s) ∧
    (∀ l, AcknowledgedOnly (.rsvd10_1F l p) s) ∧ (∀ l, AcknowledgedOnly (.rsvd20_3F l p) s) ∧
    (∀ l, AcknowledgedOnly (.rsvd40_7F l p) s) ∧ (∀ l, AcknowledgedOnly (.rsvd80_BF l p) s) ∧
    (∀ l, AcknowledgedOnly (.rsvdC0_DF l p) s) ∧ (∀ l, AcknowledgedOnly (.rsvdE0_EF l p) s) ∧
    (∀ l, AcknowledgedOnly (.rsvdF0_F7 l p) s) ∧ (∀ l, AcknowledgedOnly (.rsvdF8_FB l p) s) ∧
    (∀ l, AcknowledgedOnly (.rsvdFC_FD l p) s) ∧ AcknowledgedOnly (.rsvdFE p) s

/-- The emitted ACK (30_encoding.md R58, 43_ack_encoder.md R114, 44_sequencer.md R123), as an instruction of the model (log 10): one
TxSend of the ten bytes, whose answer is ignored (R117, the spec's decision D16), then the receiver is cleared, its bytes zeroed (R79, its
decision D8), and the phase is IDLE. The frame: the latches, the session, the storage answers, the parameters and the schedule are
unchanged. That exec completes, the TxSend answered, is the model's choice (log 7; 00_scope.md R11). -/
def Obligations.SeqAckSendsAndReopens : Prop :=
  ∀ (c r : Byte) (s : State), ∃ t, exec (.ackTx c r) s = .next t ∧
    t.outputs = s.outputs ++ [.txSend [0xC5, 0x5C, 0xFF, 0x00, 0x02, c, r, 0xFD ^^^ c ^^^ r, 0x5A, 0xA5] 10] ∧
    [0xC5, 0x5C, 0xFF, 0x00, 0x02, c, r, 0xFD ^^^ c ^^^ r, 0x5A, 0xA5] = encodeFrame 0xFF [c, r] ∧
    t.ReceiverCleared ∧ t.phase = .idle ∧ t.ackCmd = s.ackCmd ∧ t.ackRes = s.ackRes ∧ s.SessionUnchanged t ∧
    t.storeAnswers = s.storeAnswers ∧ t.draws = s.draws ∧ s.EnvironmentKept t

/-! ### The session -/

/-- Only a Reset, a valid BEGIN and a valid DATA whose write was not short change the session; DATA never changes baseOffset
(42_command_dispatch.md R108, the spec's decision D24). -/
def Obligations.SessionChangesOnlyByItsCommands : Prop :=
  ∀ s s' : State, step s = .next s' →
    s.SessionUnchanged s' ∨ s.nextTurn = .reset ∨
    (s.nextTurn = .sequencer ∧ s.phase = .decoding ∧
      ((∃ p, s.fetch = .valid (.begin p)) ∨
        ∃ p, s.fetch = .valid (.data p) ∧ p.length ≤ s.storeAnswer ∧ s'.baseOffset = s.baseOffset))

/-- After BEGIN with offset O, DATA frames that are not answered short write contiguously from O, modulo 2^32: the k-th at O plus the
sum of the answers before it (42_command_dispatch.md R112, derived by the spec; the modulus is its decision D10, an answer above the
request its decision D15, the offset read from buffer bytes 5..8 its decision D9). The model's choices: the instructions follow one
another without the services between them (log 19), the storage's answers are those the list `storeAnswers` gives (log 3), and every
request is answered (log 7; 00_scope.md R11). -/
def Obligations.DataAfterBeginIsContiguous : Prop :=
  ∀ (s : State) (q : List Byte) (ps : List (List Byte)) (ws more : List Nat),
    s.storeAnswers = ws ++ more → ws.length = ps.length → (∀ w ∈ ws, w < 2 ^ s.config.writtenBits) →
    (∀ k, k < ps.length → (ps.getD k []).length ≤ ws.getD k 0) →
    ∃ t, execAll (.begin q :: ps.map .data) s = .next t ∧ t.baseOffset = s.beginOffset ∧
      t.bytesStored = BitVec.ofNat 32 ws.sum ∧ t.storeAnswers = more ∧
      t.outputs = s.outputs ++ (List.range ps.length).map fun k =>
        .storeWrite (s.beginOffset + BitVec.ofNat 32 (ws.take k).sum) (ps.getD k []).length (ps.getD k []) (ws.getD k 0)

/-! ### Reset, invariants, progress -/

/-- Reset gives every field of the block its reset value in every state and phase, sends nothing and undoes nothing already requested
(70_reset_and_hazards.md R153, R155 and 10_state.md R28, the spec's decision D13; the zeroed bytes also R79, its decision D8). -/
def Obligations.ResetRestoresEveryField : Prop :=
  ∀ s : State, ∃ t, step (s.offer .reset) = .next t ∧ t.ReceiverCleared ∧ t.phase = .idle ∧ t.ackCmd = 0x00 ∧ t.ackRes = 0x00 ∧
    t.baseOffset = 0 ∧ t.bytesStored = 0 ∧ s.NothingRequested t ∧ s.EnvironmentKept t

/-- The reset state (10_state.md R28, the spec's decision D13) meets every clause of the invariant, in every configuration (R29, derived
by the spec). -/
def Obligations.ResetStateIsSafe : Prop := ∀ c : Config, State.Safe { State.reset with config := c }

/-- Every step from every state that meets the invariants of 10_state.md R29 (derived by the spec), with the buffer in canonical form
and inside its bound, leads to a state that meets them. -/
def Obligations.EveryStepKeepsSafe : Prop := ∀ s s' : State, s.Safe → step s = .next s' → s'.Safe

/-- Whatever the environment does after reset, in every configuration, the invariants of 10_state.md R29 hold (derived by the spec; the
order of events is a list of turns, log 1, and the storage's answers a list, log 3). -/
def Obligations.EveryExecutionStaysSafe : Prop :=
  ∀ (c : Config) (answers : List Nat) (ts : List Turn) (t : State),
    runTurns ts { State.reset with config := c, storeAnswers := answers } = .next t → t.Safe

/-- No step writes a parameter, and each takes exactly one turn out of the schedule (10_state.md R26: the parameters are synthesis-time
constants; the schedule is the model's own, log 1). -/
def Obligations.ParametersAreNeverWritten : Prop :=
  ∀ s s' : State, step s = .next s' → s'.config = s.config ∧ s'.schedule = s.schedule.tail

/-- Nothing is fatal (60_exceptions.md R147). Every step of every state goes on; every decode is answered with an ACK and ends at rest;
a Reset brings the block to rest at once (70_reset_and_hazards.md R153, the spec's decision D13); in IDLE, enough ticks and a service do.
That the ACK of a failed frame carries buf[2] is its decision D12 (43_ack_encoder.md R116, log 12), that IDLE_THRESHOLD + 1 ticks are
enough its decision D3 (40_receive_buffer_and_timer.md R81). That every request is answered is the model's choice (log 7; 00_scope.md
R11): on a platform that hangs a service does not end. -/
def Obligations.NothingIsFatal : Prop :=
  (∀ s : State, ∃ t, step s = .next t) ∧
  (∀ s : State, s.phase = .decoding → ∃ t v, step (s.offer .sequencer) = .next t ∧ step (t.offer .sequencer) = .next v ∧
    v.outputs = t.outputs ++ [.txSend (ackFrame (s.buf.read 2) t.ackRes) 10] ∧ v.AtRest) ∧
  (∀ s : State, ∃ t, step (s.offer .reset) = .next t ∧ t.AtRest) ∧
  (∀ s : State, s.Safe → s.phase = .idle →
    ∃ t, runTurns (List.replicate (s.config.idleThreshold + 1) .tick ++ [.sequencer, .sequencer, .sequencer]) s = .next t ∧
      t.AtRest)

/-- Delivering a frame: from a block at rest with an empty receiver, the frame's bytes, the quiet period and a service amount to
executing the instruction on the loaded buffer and then sending its ACK (30_encoding.md section 8, `xfer`; 40_receive_buffer_and_timer.md
R71, R81; 41_frame_decoder.md R95 a; 44_sequencer.md section 3). The tick count is the spec's decision D3, zero fill beyond the frame its
decision D8. That every request is answered is the model's choice (log 7; 00_scope.md R11). -/
def Obligations.DeliveredFrameIsExecutedAndAcknowledged : Prop :=
  ∀ (s : State) (i : Instr), s.Safe → s.AtRest → s.receiving = false → i.isReceived = true → i.wellFormed s.config = true →
    ∃ u v,
      exec i { s with
        buf := Memory.ofBytes (encode i)
        tail := (encode i).length
        receiving := false
        idleTicks := s.config.idleThreshold + 1
        frameReady := true
        phase := .decoding } = .next u ∧
      exec (.ackTx i.cmd u.ackRes) u = .next v ∧
      runTurns ((encode i).map .rxByte ++ List.replicate (s.config.idleThreshold + 1) .tick ++
        [.sequencer, .sequencer, .sequencer]) s = .next v

/-- Turns happening one after another are the machine run on a schedule that lists them (the schedule is the model's own, log 1). -/
def Obligations.RunningTurnsIsRunningTheSchedule : Prop :=
  ∀ (ts : List Turn) (s : State),
    runTurns ts s = Sys2Proof.core.run ts.length ({ s with schedule := ts ++ s.schedule } : State)
end

