-- ==== Sys2Proof/Laws/Decode.lean ====
section
/-! SUPPORT. The laws of the command byte, the multi-byte values, the checksum and the frame layout. -/

namespace Sys2Proof

/-! ### The command byte -/

theorem payload_ofCmd (c : Byte) (p : List Byte) : (ofCmd c p).payload = p := by
  simp only [ofCmd, apply_ite Instr.payload]
  simp only [Instr.payload, ite_self]

theorem cmd_ofCmd_payload (c : Byte) (p q : List Byte) : (ofCmd c p).cmd = (ofCmd c q).cmd := by
  simp only [ofCmd, apply_ite Instr.cmd]
  simp only [Instr.cmd]

set_option maxRecDepth 8192 in
/-- The selected instruction has the command byte it was selected by: no value falls through to another row's (R54). -/
theorem cmd_ofCmd (c : Byte) (p : List Byte) : (ofCmd c p).cmd = c := by
  rw [cmd_ofCmd_payload c p []]
  have : ∀ n, n < 256 → (ofCmd (BitVec.ofNat 8 n) []).cmd = BitVec.ofNat 8 n := by decide
  simpa using this c.toNat c.isLt

theorem isReceived_ofCmd (c : Byte) (p : List Byte) : (ofCmd c p).isReceived = true := by
  simp only [ofCmd, apply_ite Instr.isReceived]
  simp only [Instr.isReceived, ite_self]

theorem encode_ofCmd (c : Byte) (p : List Byte) : encode (ofCmd c p) = encodeFrame c p := by
  rw [encode, cmd_ofCmd, payload_ofCmd]

/-! ### Multi-byte values and the checksum -/

/-- The two length bytes give the length back (30_encoding.md R52, R57). -/
theorem be16_length (n : Nat) (h : n ≤ 65535) : be16 (BitVec.ofNat 8 (n / 256)) (BitVec.ofNat 8 n) = n := by
  simp only [be16, BitVec.toNat_ofNat]
  omega

theorem be16_lt (h l : Byte) : be16 h l ≤ 65535 := by
  have := h.isLt
  have := l.isLt
  unfold be16
  omega

/-- The length determines its two bytes. -/
theorem length_bytes_of_be16 (h l : Byte) :
    BitVec.ofNat 8 (be16 h l / 256) = h ∧ BitVec.ofNat 8 (be16 h l) = l := by
  have := h.isLt
  have := l.isLt
  constructor <;> apply BitVec.eq_of_toNat_eq <;> simp only [be16, BitVec.toNat_ofNat] <;> omega

@[simp] theorem xorFold_nil : xorFold [] = 0 := rfl

@[simp] theorem xorFold_cons (b : Byte) (bs : List Byte) : xorFold (b :: bs) = b ^^^ xorFold bs := rfl

theorem xorFold_append (as bs : List Byte) : xorFold (as ++ bs) = xorFold as ^^^ xorFold bs := by
  induction as with
  | nil => simp
  | cons a as ih => simp [ih, BitVec.xor_assoc]

/-! ### The frame layout -/

/-- "Invariant: total frame size = 8 + length" (30_encoding.md R50). -/
theorem length_encodeFrame (c : Byte) (p : List Byte) : (encodeFrame c p).length = 8 + p.length := by
  simp [encodeFrame]
  omega

theorem boundLength_of_le {c : Config} {n : Nat} (h : n ≤ c.maxPayload) : boundLength c n = some n := if_pos h

theorem boundLength_le {c : Config} {n m : Nat} (h : boundLength c n = some m) : m ≤ c.maxPayload := by
  unfold boundLength at h
  split at h
  · simp_all
  · split at h <;> simp_all

/-- The ACK the block emits is the encoder's frame of command 0xFF with the pair as payload (30_encoding.md R58). -/
theorem ackFrame_eq_encode (c r : Byte) : ackFrame c r = encode (.ackTx c r) := by
  simp [ackFrame, encode, encodeFrame, Instr.cmd, Instr.payload, BitVec.xor_assoc]

@[simp] theorem length_ackFrame (c r : Byte) : (ackFrame c r).length = ackLen := rfl

end Sys2Proof
end

