-- ==== Sys2Proof/Laws/State.lean ====
section
/-! SUPPORT. One lemma per field per named update of State, so that no proof unfolds a record update. -/

namespace Sys2Proof.Machine

variable (s : State)

/-! ### clearReceiver -/

@[simp] theorem State.clearReceiver_buf : (s.clearReceiver).buf = [] := rfl
@[simp] theorem State.clearReceiver_tail : (s.clearReceiver).tail = 0 := rfl
@[simp] theorem State.clearReceiver_receiving : (s.clearReceiver).receiving = false := rfl
@[simp] theorem State.clearReceiver_idleTicks : (s.clearReceiver).idleTicks = 0 := rfl
@[simp] theorem State.clearReceiver_frameReady : (s.clearReceiver).frameReady = false := rfl
@[simp] theorem State.clearReceiver_phase : (s.clearReceiver).phase = s.phase := rfl
@[simp] theorem State.clearReceiver_ackCmd : (s.clearReceiver).ackCmd = s.ackCmd := rfl
@[simp] theorem State.clearReceiver_ackRes : (s.clearReceiver).ackRes = s.ackRes := rfl
@[simp] theorem State.clearReceiver_baseOffset : (s.clearReceiver).baseOffset = s.baseOffset := rfl
@[simp] theorem State.clearReceiver_bytesStored : (s.clearReceiver).bytesStored = s.bytesStored := rfl
@[simp] theorem State.clearReceiver_config : (s.clearReceiver).config = s.config := rfl
@[simp] theorem State.clearReceiver_schedule : (s.clearReceiver).schedule = s.schedule := rfl
@[simp] theorem State.clearReceiver_storeAnswers : (s.clearReceiver).storeAnswers = s.storeAnswers := rfl
@[simp] theorem State.clearReceiver_draws : (s.clearReceiver).draws = s.draws := rfl
@[simp] theorem State.clearReceiver_outputs : (s.clearReceiver).outputs = s.outputs := rfl

/-! ### resetBlock -/

@[simp] theorem State.resetBlock_buf : (s.resetBlock).buf = [] := rfl
@[simp] theorem State.resetBlock_tail : (s.resetBlock).tail = 0 := rfl
@[simp] theorem State.resetBlock_receiving : (s.resetBlock).receiving = false := rfl
@[simp] theorem State.resetBlock_idleTicks : (s.resetBlock).idleTicks = 0 := rfl
@[simp] theorem State.resetBlock_frameReady : (s.resetBlock).frameReady = false := rfl
@[simp] theorem State.resetBlock_phase : (s.resetBlock).phase = .idle := rfl
@[simp] theorem State.resetBlock_ackCmd : (s.resetBlock).ackCmd = 0x00 := rfl
@[simp] theorem State.resetBlock_ackRes : (s.resetBlock).ackRes = 0x00 := rfl
@[simp] theorem State.resetBlock_baseOffset : (s.resetBlock).baseOffset = 0 := rfl
@[simp] theorem State.resetBlock_bytesStored : (s.resetBlock).bytesStored = 0 := rfl
@[simp] theorem State.resetBlock_config : (s.resetBlock).config = s.config := rfl
@[simp] theorem State.resetBlock_schedule : (s.resetBlock).schedule = s.schedule := rfl
@[simp] theorem State.resetBlock_storeAnswers : (s.resetBlock).storeAnswers = s.storeAnswers := rfl
@[simp] theorem State.resetBlock_draws : (s.resetBlock).draws = s.draws := rfl
@[simp] theorem State.resetBlock_outputs : (s.resetBlock).outputs = s.outputs := rfl

/-! ### storeWrite -/

@[simp] theorem State.storeWrite_buf (o : Offset) (bs : List Byte) : (s.storeWrite o bs).buf = s.buf := rfl
@[simp] theorem State.storeWrite_tail (o : Offset) (bs : List Byte) : (s.storeWrite o bs).tail = s.tail := rfl
@[simp] theorem State.storeWrite_receiving (o : Offset) (bs : List Byte) : (s.storeWrite o bs).receiving = s.receiving := rfl
@[simp] theorem State.storeWrite_idleTicks (o : Offset) (bs : List Byte) : (s.storeWrite o bs).idleTicks = s.idleTicks := rfl
@[simp] theorem State.storeWrite_frameReady (o : Offset) (bs : List Byte) : (s.storeWrite o bs).frameReady = s.frameReady := rfl
@[simp] theorem State.storeWrite_phase (o : Offset) (bs : List Byte) : (s.storeWrite o bs).phase = s.phase := rfl
@[simp] theorem State.storeWrite_ackCmd (o : Offset) (bs : List Byte) : (s.storeWrite o bs).ackCmd = s.ackCmd := rfl
@[simp] theorem State.storeWrite_ackRes (o : Offset) (bs : List Byte) : (s.storeWrite o bs).ackRes = s.ackRes := rfl
@[simp] theorem State.storeWrite_baseOffset (o : Offset) (bs : List Byte) : (s.storeWrite o bs).baseOffset = s.baseOffset := rfl
@[simp] theorem State.storeWrite_bytesStored (o : Offset) (bs : List Byte) : (s.storeWrite o bs).bytesStored = s.bytesStored := rfl
@[simp] theorem State.storeWrite_config (o : Offset) (bs : List Byte) : (s.storeWrite o bs).config = s.config := rfl
@[simp] theorem State.storeWrite_schedule (o : Offset) (bs : List Byte) : (s.storeWrite o bs).schedule = s.schedule := rfl
@[simp] theorem State.storeWrite_storeAnswers (o : Offset) (bs : List Byte) : (s.storeWrite o bs).storeAnswers = s.storeAnswers.tail := rfl
@[simp] theorem State.storeWrite_draws (o : Offset) (bs : List Byte) : (s.storeWrite o bs).draws = s.draws + 1 := rfl
@[simp] theorem State.storeWrite_outputs (o : Offset) (bs : List Byte) : (s.storeWrite o bs).outputs = s.outputs ++ [.storeWrite o bs.length bs s.storeAnswer] := rfl

/-! ### txSend -/

@[simp] theorem State.txSend_buf (bs : List Byte) : (s.txSend bs).buf = s.buf := rfl
@[simp] theorem State.txSend_tail (bs : List Byte) : (s.txSend bs).tail = s.tail := rfl
@[simp] theorem State.txSend_receiving (bs : List Byte) : (s.txSend bs).receiving = s.receiving := rfl
@[simp] theorem State.txSend_idleTicks (bs : List Byte) : (s.txSend bs).idleTicks = s.idleTicks := rfl
@[simp] theorem State.txSend_frameReady (bs : List Byte) : (s.txSend bs).frameReady = s.frameReady := rfl
@[simp] theorem State.txSend_phase (bs : List Byte) : (s.txSend bs).phase = s.phase := rfl
@[simp] theorem State.txSend_ackCmd (bs : List Byte) : (s.txSend bs).ackCmd = s.ackCmd := rfl
@[simp] theorem State.txSend_ackRes (bs : List Byte) : (s.txSend bs).ackRes = s.ackRes := rfl
@[simp] theorem State.txSend_baseOffset (bs : List Byte) : (s.txSend bs).baseOffset = s.baseOffset := rfl
@[simp] theorem State.txSend_bytesStored (bs : List Byte) : (s.txSend bs).bytesStored = s.bytesStored := rfl
@[simp] theorem State.txSend_config (bs : List Byte) : (s.txSend bs).config = s.config := rfl
@[simp] theorem State.txSend_schedule (bs : List Byte) : (s.txSend bs).schedule = s.schedule := rfl
@[simp] theorem State.txSend_storeAnswers (bs : List Byte) : (s.txSend bs).storeAnswers = s.storeAnswers := rfl
@[simp] theorem State.txSend_draws (bs : List Byte) : (s.txSend bs).draws = s.draws := rfl
@[simp] theorem State.txSend_outputs (bs : List Byte) : (s.txSend bs).outputs = s.outputs ++ [.txSend bs bs.length] := rfl

/-! ### takeResult -/

@[simp] theorem State.takeResult_buf (r : Result) : (s.takeResult r).buf = s.buf := rfl
@[simp] theorem State.takeResult_tail (r : Result) : (s.takeResult r).tail = s.tail := rfl
@[simp] theorem State.takeResult_receiving (r : Result) : (s.takeResult r).receiving = s.receiving := rfl
@[simp] theorem State.takeResult_idleTicks (r : Result) : (s.takeResult r).idleTicks = s.idleTicks := rfl
@[simp] theorem State.takeResult_frameReady (r : Result) : (s.takeResult r).frameReady = s.frameReady := rfl
@[simp] theorem State.takeResult_phase (r : Result) : (s.takeResult r).phase = .ackPending := rfl
@[simp] theorem State.takeResult_ackCmd (r : Result) : (s.takeResult r).ackCmd = s.buf.read 2 := rfl
@[simp] theorem State.takeResult_ackRes (r : Result) : (s.takeResult r).ackRes = r.code := rfl
@[simp] theorem State.takeResult_baseOffset (r : Result) : (s.takeResult r).baseOffset = s.baseOffset := rfl
@[simp] theorem State.takeResult_bytesStored (r : Result) : (s.takeResult r).bytesStored = s.bytesStored := rfl
@[simp] theorem State.takeResult_config (r : Result) : (s.takeResult r).config = s.config := rfl
@[simp] theorem State.takeResult_schedule (r : Result) : (s.takeResult r).schedule = s.schedule := rfl
@[simp] theorem State.takeResult_storeAnswers (r : Result) : (s.takeResult r).storeAnswers = s.storeAnswers := rfl
@[simp] theorem State.takeResult_draws (r : Result) : (s.takeResult r).draws = s.draws := rfl
@[simp] theorem State.takeResult_outputs (r : Result) : (s.takeResult r).outputs = s.outputs := rfl

/-! ### raiseVerificationError -/

@[simp] theorem State.raiseVerificationError_buf : (s.raiseVerificationError).buf = s.buf := rfl
@[simp] theorem State.raiseVerificationError_tail : (s.raiseVerificationError).tail = s.tail := rfl
@[simp] theorem State.raiseVerificationError_receiving : (s.raiseVerificationError).receiving = s.receiving := rfl
@[simp] theorem State.raiseVerificationError_idleTicks : (s.raiseVerificationError).idleTicks = s.idleTicks := rfl
@[simp] theorem State.raiseVerificationError_frameReady : (s.raiseVerificationError).frameReady = s.frameReady := rfl
@[simp] theorem State.raiseVerificationError_phase : (s.raiseVerificationError).phase = .ackPending := rfl
@[simp] theorem State.raiseVerificationError_ackCmd : (s.raiseVerificationError).ackCmd = s.buf.read 2 := rfl
@[simp] theorem State.raiseVerificationError_ackRes : (s.raiseVerificationError).ackRes = 0x01 := rfl
@[simp] theorem State.raiseVerificationError_baseOffset : (s.raiseVerificationError).baseOffset = s.baseOffset := rfl
@[simp] theorem State.raiseVerificationError_bytesStored : (s.raiseVerificationError).bytesStored = s.bytesStored := rfl
@[simp] theorem State.raiseVerificationError_config : (s.raiseVerificationError).config = s.config := rfl
@[simp] theorem State.raiseVerificationError_schedule : (s.raiseVerificationError).schedule = s.schedule := rfl
@[simp] theorem State.raiseVerificationError_storeAnswers : (s.raiseVerificationError).storeAnswers = s.storeAnswers := rfl
@[simp] theorem State.raiseVerificationError_draws : (s.raiseVerificationError).draws = s.draws := rfl
@[simp] theorem State.raiseVerificationError_outputs : (s.raiseVerificationError).outputs = s.outputs := rfl

/-! ### endService -/

@[simp] theorem State.endService_buf : (s.endService).buf = [] := rfl
@[simp] theorem State.endService_tail : (s.endService).tail = 0 := rfl
@[simp] theorem State.endService_receiving : (s.endService).receiving = false := rfl
@[simp] theorem State.endService_idleTicks : (s.endService).idleTicks = 0 := rfl
@[simp] theorem State.endService_frameReady : (s.endService).frameReady = false := rfl
@[simp] theorem State.endService_phase : (s.endService).phase = .idle := rfl
@[simp] theorem State.endService_ackCmd : (s.endService).ackCmd = s.ackCmd := rfl
@[simp] theorem State.endService_ackRes : (s.endService).ackRes = s.ackRes := rfl
@[simp] theorem State.endService_baseOffset : (s.endService).baseOffset = s.baseOffset := rfl
@[simp] theorem State.endService_bytesStored : (s.endService).bytesStored = s.bytesStored := rfl
@[simp] theorem State.endService_config : (s.endService).config = s.config := rfl
@[simp] theorem State.endService_schedule : (s.endService).schedule = s.schedule := rfl
@[simp] theorem State.endService_storeAnswers : (s.endService).storeAnswers = s.storeAnswers := rfl
@[simp] theorem State.endService_draws : (s.endService).draws = s.draws := rfl
@[simp] theorem State.endService_outputs : (s.endService).outputs = s.outputs := rfl

/-! ### popTurn -/

@[simp] theorem State.popTurn_buf : (s.popTurn).buf = s.buf := rfl
@[simp] theorem State.popTurn_tail : (s.popTurn).tail = s.tail := rfl
@[simp] theorem State.popTurn_receiving : (s.popTurn).receiving = s.receiving := rfl
@[simp] theorem State.popTurn_idleTicks : (s.popTurn).idleTicks = s.idleTicks := rfl
@[simp] theorem State.popTurn_frameReady : (s.popTurn).frameReady = s.frameReady := rfl
@[simp] theorem State.popTurn_phase : (s.popTurn).phase = s.phase := rfl
@[simp] theorem State.popTurn_ackCmd : (s.popTurn).ackCmd = s.ackCmd := rfl
@[simp] theorem State.popTurn_ackRes : (s.popTurn).ackRes = s.ackRes := rfl
@[simp] theorem State.popTurn_baseOffset : (s.popTurn).baseOffset = s.baseOffset := rfl
@[simp] theorem State.popTurn_bytesStored : (s.popTurn).bytesStored = s.bytesStored := rfl
@[simp] theorem State.popTurn_config : (s.popTurn).config = s.config := rfl
@[simp] theorem State.popTurn_schedule : (s.popTurn).schedule = s.schedule.tail := rfl
@[simp] theorem State.popTurn_storeAnswers : (s.popTurn).storeAnswers = s.storeAnswers := rfl
@[simp] theorem State.popTurn_draws : (s.popTurn).draws = s.draws := rfl
@[simp] theorem State.popTurn_outputs : (s.popTurn).outputs = s.outputs := rfl

/-! ### offerCycle -/

@[simp] theorem State.offerCycle_buf (c : Cycle) : (s.offerCycle c).buf = s.buf := rfl
@[simp] theorem State.offerCycle_tail (c : Cycle) : (s.offerCycle c).tail = s.tail := rfl
@[simp] theorem State.offerCycle_receiving (c : Cycle) : (s.offerCycle c).receiving = s.receiving := rfl
@[simp] theorem State.offerCycle_idleTicks (c : Cycle) : (s.offerCycle c).idleTicks = s.idleTicks := rfl
@[simp] theorem State.offerCycle_frameReady (c : Cycle) : (s.offerCycle c).frameReady = s.frameReady := rfl
@[simp] theorem State.offerCycle_phase (c : Cycle) : (s.offerCycle c).phase = s.phase := rfl
@[simp] theorem State.offerCycle_ackCmd (c : Cycle) : (s.offerCycle c).ackCmd = s.ackCmd := rfl
@[simp] theorem State.offerCycle_ackRes (c : Cycle) : (s.offerCycle c).ackRes = s.ackRes := rfl
@[simp] theorem State.offerCycle_baseOffset (c : Cycle) : (s.offerCycle c).baseOffset = s.baseOffset := rfl
@[simp] theorem State.offerCycle_bytesStored (c : Cycle) : (s.offerCycle c).bytesStored = s.bytesStored := rfl
@[simp] theorem State.offerCycle_config (c : Cycle) : (s.offerCycle c).config = s.config := rfl
@[simp] theorem State.offerCycle_schedule (c : Cycle) : (s.offerCycle c).schedule = s.schedule ++ c.turns := rfl
@[simp] theorem State.offerCycle_storeAnswers (c : Cycle) : (s.offerCycle c).storeAnswers = s.storeAnswers := rfl
@[simp] theorem State.offerCycle_draws (c : Cycle) : (s.offerCycle c).draws = s.draws := rfl
@[simp] theorem State.offerCycle_outputs (c : Cycle) : (s.offerCycle c).outputs = s.outputs := rfl

/-! ### rxByte -/

@[simp] theorem State.rxByte_frameReady (b : Byte) : (s.rxByte b).frameReady = s.frameReady := by unfold State.rxByte; split <;> rfl
@[simp] theorem State.rxByte_phase (b : Byte) : (s.rxByte b).phase = s.phase := by unfold State.rxByte; split <;> rfl
@[simp] theorem State.rxByte_ackCmd (b : Byte) : (s.rxByte b).ackCmd = s.ackCmd := by unfold State.rxByte; split <;> rfl
@[simp] theorem State.rxByte_ackRes (b : Byte) : (s.rxByte b).ackRes = s.ackRes := by unfold State.rxByte; split <;> rfl
@[simp] theorem State.rxByte_baseOffset (b : Byte) : (s.rxByte b).baseOffset = s.baseOffset := by unfold State.rxByte; split <;> rfl
@[simp] theorem State.rxByte_bytesStored (b : Byte) : (s.rxByte b).bytesStored = s.bytesStored := by unfold State.rxByte; split <;> rfl
@[simp] theorem State.rxByte_config (b : Byte) : (s.rxByte b).config = s.config := by unfold State.rxByte; split <;> rfl
@[simp] theorem State.rxByte_schedule (b : Byte) : (s.rxByte b).schedule = s.schedule := by unfold State.rxByte; split <;> rfl
@[simp] theorem State.rxByte_storeAnswers (b : Byte) : (s.rxByte b).storeAnswers = s.storeAnswers := by unfold State.rxByte; split <;> rfl
@[simp] theorem State.rxByte_draws (b : Byte) : (s.rxByte b).draws = s.draws := by unfold State.rxByte; split <;> rfl
@[simp] theorem State.rxByte_outputs (b : Byte) : (s.rxByte b).outputs = s.outputs := by unfold State.rxByte; split <;> rfl

/-! ### tick -/

@[simp] theorem State.tick_buf : (s.tick).buf = s.buf := by
  unfold State.tick
  split
  · dsimp only
    split <;> rfl
  · rfl
@[simp] theorem State.tick_tail : (s.tick).tail = s.tail := by
  unfold State.tick
  split
  · dsimp only
    split <;> rfl
  · rfl
@[simp] theorem State.tick_phase : (s.tick).phase = s.phase := by
  unfold State.tick
  split
  · dsimp only
    split <;> rfl
  · rfl
@[simp] theorem State.tick_ackCmd : (s.tick).ackCmd = s.ackCmd := by
  unfold State.tick
  split
  · dsimp only
    split <;> rfl
  · rfl
@[simp] theorem State.tick_ackRes : (s.tick).ackRes = s.ackRes := by
  unfold State.tick
  split
  · dsimp only
    split <;> rfl
  · rfl
@[simp] theorem State.tick_baseOffset : (s.tick).baseOffset = s.baseOffset := by
  unfold State.tick
  split
  · dsimp only
    split <;> rfl
  · rfl
@[simp] theorem State.tick_bytesStored : (s.tick).bytesStored = s.bytesStored := by
  unfold State.tick
  split
  · dsimp only
    split <;> rfl
  · rfl
@[simp] theorem State.tick_config : (s.tick).config = s.config := by
  unfold State.tick
  split
  · dsimp only
    split <;> rfl
  · rfl
@[simp] theorem State.tick_schedule : (s.tick).schedule = s.schedule := by
  unfold State.tick
  split
  · dsimp only
    split <;> rfl
  · rfl
@[simp] theorem State.tick_storeAnswers : (s.tick).storeAnswers = s.storeAnswers := by
  unfold State.tick
  split
  · dsimp only
    split <;> rfl
  · rfl
@[simp] theorem State.tick_draws : (s.tick).draws = s.draws := by
  unfold State.tick
  split
  · dsimp only
    split <;> rfl
  · rfl
@[simp] theorem State.tick_outputs : (s.tick).outputs = s.outputs := by
  unfold State.tick
  split
  · dsimp only
    split <;> rfl
  · rfl

/-! ### clear -/

@[simp] theorem State.clear_phase : (s.clear).phase = s.phase := by unfold State.clear; split <;> rfl
@[simp] theorem State.clear_ackCmd : (s.clear).ackCmd = s.ackCmd := by unfold State.clear; split <;> rfl
@[simp] theorem State.clear_ackRes : (s.clear).ackRes = s.ackRes := by unfold State.clear; split <;> rfl
@[simp] theorem State.clear_baseOffset : (s.clear).baseOffset = s.baseOffset := by unfold State.clear; split <;> rfl
@[simp] theorem State.clear_bytesStored : (s.clear).bytesStored = s.bytesStored := by unfold State.clear; split <;> rfl
@[simp] theorem State.clear_config : (s.clear).config = s.config := by unfold State.clear; split <;> rfl
@[simp] theorem State.clear_schedule : (s.clear).schedule = s.schedule := by unfold State.clear; split <;> rfl
@[simp] theorem State.clear_storeAnswers : (s.clear).storeAnswers = s.storeAnswers := by unfold State.clear; split <;> rfl
@[simp] theorem State.clear_draws : (s.clear).draws = s.draws := by unfold State.clear; split <;> rfl
@[simp] theorem State.clear_outputs : (s.clear).outputs = s.outputs := by unfold State.clear; split <;> rfl

/-! ### seqStart -/

@[simp] theorem State.seqStart_buf : (s.seqStart).buf = s.buf := by unfold State.seqStart; split <;> rfl
@[simp] theorem State.seqStart_tail : (s.seqStart).tail = s.tail := by unfold State.seqStart; split <;> rfl
@[simp] theorem State.seqStart_receiving : (s.seqStart).receiving = s.receiving := by unfold State.seqStart; split <;> rfl
@[simp] theorem State.seqStart_idleTicks : (s.seqStart).idleTicks = s.idleTicks := by unfold State.seqStart; split <;> rfl
@[simp] theorem State.seqStart_frameReady : (s.seqStart).frameReady = s.frameReady := by unfold State.seqStart; split <;> rfl
@[simp] theorem State.seqStart_ackCmd : (s.seqStart).ackCmd = s.ackCmd := by unfold State.seqStart; split <;> rfl
@[simp] theorem State.seqStart_ackRes : (s.seqStart).ackRes = s.ackRes := by unfold State.seqStart; split <;> rfl
@[simp] theorem State.seqStart_baseOffset : (s.seqStart).baseOffset = s.baseOffset := by unfold State.seqStart; split <;> rfl
@[simp] theorem State.seqStart_bytesStored : (s.seqStart).bytesStored = s.bytesStored := by unfold State.seqStart; split <;> rfl
@[simp] theorem State.seqStart_config : (s.seqStart).config = s.config := by unfold State.seqStart; split <;> rfl
@[simp] theorem State.seqStart_schedule : (s.seqStart).schedule = s.schedule := by unfold State.seqStart; split <;> rfl
@[simp] theorem State.seqStart_storeAnswers : (s.seqStart).storeAnswers = s.storeAnswers := by unfold State.seqStart; split <;> rfl
@[simp] theorem State.seqStart_draws : (s.seqStart).draws = s.draws := by unfold State.seqStart; split <;> rfl
@[simp] theorem State.seqStart_outputs : (s.seqStart).outputs = s.outputs := by unfold State.seqStart; split <;> rfl

end Sys2Proof.Machine
end

