-- ==== Sys2Proof/Laws/Memory.lean ====
section
/-! SUPPORT. The laws of the receive buffer: read after write, the canonical form kept by every operation, equal reads of canonical
memories make equal memories, and the bytes of a loaded frame. -/

namespace Sys2Proof.Machine

@[simp] theorem Memory.read_nil (i : Nat) : Memory.read [] i = Memory.unlisted := rfl

@[simp] theorem Memory.read_cons (a : Nat) (v : Byte) (m : Memory) (i : Nat) :
    Memory.read ((a, v) :: m) i = if i = a then v else Memory.read m i := rfl

theorem Memory.wfFrom_cons {lo a : Nat} {v : Byte} {m : Memory} :
    Memory.wfFrom lo ((a, v) :: m) = true ↔ lo ≤ a ∧ v ≠ Memory.unlisted ∧ Memory.wfFrom (a + 1) m = true := by
  simp [Memory.wfFrom, and_assoc]

theorem Memory.wfFrom_mono {lo lo' : Nat} (h : lo' ≤ lo) : {m : Memory} → Memory.wfFrom lo m = true → Memory.wfFrom lo' m = true
  | [], _ => rfl
  | (a, v) :: m, hm => by
    rw [Memory.wfFrom_cons] at hm ⊢
    exact ⟨h.trans hm.1, hm.2⟩

/-- Below the first index a canonical list may hold, every byte is unlisted. -/
theorem Memory.read_of_lt {lo i : Nat} (h : i < lo) : {m : Memory} → Memory.wfFrom lo m = true → m.read i = Memory.unlisted
  | [], _ => rfl
  | (a, v) :: m, hm => by
    rw [Memory.wfFrom_cons] at hm
    rw [Memory.read_cons, if_neg (by omega)]
    exact Memory.read_of_lt (lo := a + 1) (by omega) hm.2.2

theorem Memory.read_write_from {lo i : Nat} (b : Byte) (j : Nat) :
    {m : Memory} → Memory.wfFrom lo m = true → (m.write i b).read j = if j = i then b else m.read j
  | [], _ => by
    unfold Memory.write
    split <;> simp_all
  | (a, v) :: m, hm => by
    rw [Memory.wfFrom_cons] at hm
    have below : ∀ k, k ≤ a → Memory.read m k = Memory.unlisted := fun k hk =>
      Memory.read_of_lt (lo := a + 1) (by omega) hm.2.2
    unfold Memory.write
    rcases lt_trichotomy i a with h | h | h
    · rw [if_pos h]
      split
      · by_cases hj : j = i
        · subst hj
          rw [if_pos rfl, Memory.read_cons, if_neg (by omega), below j (by omega)]
          simp_all
        · rw [if_neg hj]
      · rfl
    · subst h
      rw [if_neg (by omega), if_pos rfl]
      split
      · by_cases hj : j = i
        · subst hj
          rw [if_pos rfl, below j le_rfl]
          simp_all
        · rw [if_neg hj, Memory.read_cons, if_neg hj]
      · by_cases hj : j = i <;> simp [hj]
    · rw [if_neg (by omega), if_neg (by omega), Memory.read_cons, Memory.read_write_from b j hm.2.2, Memory.read_cons]
      by_cases hj : j = a
      · rw [if_pos hj, if_neg (by omega), if_pos hj]
      · rw [if_neg hj, if_neg hj]

/-- Reading after a write: the byte written at its index, every other byte as before. -/
theorem Memory.read_write {m : Memory} (h : m.wf = true) (i : Nat) (b : Byte) (j : Nat) :
    (m.write i b).read j = if j = i then b else m.read j := Memory.read_write_from b j h

theorem Memory.wfFrom_write {lo i : Nat} (b : Byte) (hi : lo ≤ i) :
    {m : Memory} → Memory.wfFrom lo m = true → Memory.wfFrom lo (m.write i b) = true
  | [], _ => by
    unfold Memory.write
    split
    · rfl
    · rw [Memory.wfFrom_cons]
      exact ⟨hi, ‹_›, rfl⟩
  | (a, v) :: m, hm => by
    have hm' := hm
    rw [Memory.wfFrom_cons] at hm'
    unfold Memory.write
    split
    · split
      · exact hm
      · rw [Memory.wfFrom_cons, Memory.wfFrom_cons]
        exact ⟨hi, ‹_›, by omega, hm'.2⟩
    · split
      · subst i
        split
        · exact Memory.wfFrom_mono (by omega) hm'.2.2
        · rw [Memory.wfFrom_cons]
          exact ⟨hi, ‹_›, hm'.2.2⟩
      · rw [Memory.wfFrom_cons]
        exact ⟨hm'.1, hm'.2.1, Memory.wfFrom_write b (by omega) hm'.2.2⟩

/-- A write keeps the canonical form. -/
theorem Memory.wf_write {m : Memory} (h : m.wf = true) (i : Nat) (b : Byte) : (m.write i b).wf = true :=
  Memory.wfFrom_write b (Nat.zero_le _) h

/-- A write below a bound keeps every listed index below it. -/
theorem Memory.below_write {n i : Nat} (b : Byte) (hi : i < n) :
    {m : Memory} → m.below n = true → (m.write i b).below n = true
  | [], _ => by
    unfold Memory.write
    split <;> simp [Memory.below, hi]
  | (a, v) :: m, hm => by
    simp only [Memory.below, List.all_cons, Bool.and_eq_true, decide_eq_true_eq] at hm
    have hw := Memory.below_write b hi (m := m) hm.2
    unfold Memory.below at hw
    unfold Memory.write
    split
    · split <;> simp [Memory.below, hm.1, hi, hm.2]
    · split
      · split <;> simp [Memory.below, hi, hm.2]
      · simpa only [Memory.below, List.all_cons, Bool.and_eq_true, decide_eq_true_eq] using ⟨hm.1, hw⟩

theorem Memory.eq_of_read_from {lo : Nat} :
    {m m' : Memory} → Memory.wfFrom lo m = true → Memory.wfFrom lo m' = true → (∀ i, m.read i = m'.read i) → m = m'
  | [], [], _, _, _ => rfl
  | [], (a, v) :: m', _, h', h => by
    rw [Memory.wfFrom_cons] at h'
    have := h a
    simp at this
    exact absurd this.symm h'.2.1
  | (a, v) :: m, [], h0, _, h => by
    rw [Memory.wfFrom_cons] at h0
    have := h a
    simp at this
    exact absurd this h0.2.1
  | (a, v) :: m, (a', v') :: m', h0, h', h => by
    rw [Memory.wfFrom_cons] at h0 h'
    have ha : a = a' := by
      rcases lt_trichotomy a a' with hlt | heq | hgt
      · have := h a
        rw [Memory.read_cons, if_pos rfl, Memory.read_cons, if_neg (by omega),
          Memory.read_of_lt (lo := a' + 1) (by omega) h'.2.2] at this
        exact absurd this h0.2.1
      · exact heq
      · have := h a'
        rw [Memory.read_cons, if_neg (by omega), Memory.read_of_lt (lo := a + 1) (by omega) h0.2.2, Memory.read_cons,
          if_pos rfl] at this
        exact absurd this.symm h'.2.1
    subst ha
    have hv : v = v' := by simpa using h a
    subst hv
    rw [Memory.eq_of_read_from (lo := a + 1) h0.2.2 h'.2.2 fun i => ?_]
    by_cases hi : i = a
    · subst hi
      rw [Memory.read_of_lt (lo := i + 1) (by omega) h0.2.2, Memory.read_of_lt (lo := i + 1) (by omega) h'.2.2]
    · simpa [hi] using h i

/-- Canonical memories that read alike are equal. -/
theorem Memory.eq_of_read {m m' : Memory} (h : m.wf = true) (h' : m'.wf = true) (hr : ∀ i, m.read i = m'.read i) : m = m' :=
  Memory.eq_of_read_from h h' hr

/-! ### Ranges -/

@[simp] theorem Memory.length_readRange (m : Memory) : (n i : Nat) → (m.readRange i n).length = n
  | 0, _ => rfl
  | n + 1, i => by simp [Memory.readRange, Memory.length_readRange m n (i + 1)]

theorem Memory.getElem?_readRange (m : Memory) :
    (n i k : Nat) → (m.readRange i n)[k]? = if k < n then some (m.read (i + k)) else none
  | 0, _, _ => by simp [Memory.readRange]
  | n + 1, i, 0 => by simp [Memory.readRange]
  | n + 1, i, k + 1 => by
    simp only [Memory.readRange, List.getElem?_cons_succ, Memory.getElem?_readRange m n (i + 1) k, Nat.add_lt_add_iff_right]
    congr 2
    congr 1
    omega

/-- A range is the bytes at its indices, in order. -/
theorem Memory.readRange_eq_map (m : Memory) (i n : Nat) : m.readRange i n = (List.range n).map fun k => m.read (i + k) := by
  apply List.ext_getElem?
  intro k
  rw [Memory.getElem?_readRange, List.getElem?_map]
  by_cases h : k < n <;> simp [h]

theorem Memory.readRange_add (m : Memory) : (k i n : Nat) → m.readRange i (k + n) = m.readRange i k ++ m.readRange (i + k) n
  | 0, i, n => by simp [Memory.readRange]
  | k + 1, i, n => by
    rw [Nat.add_right_comm]
    simp only [Memory.readRange, Memory.readRange_add m k (i + 1) n, List.cons_append]
    congr 3
    omega

/-! ### A loaded list of bytes -/

theorem Memory.wfFrom_ofBytesFrom : (bs : List Byte) → (i : Nat) → Memory.wfFrom i (Memory.ofBytesFrom i bs) = true
  | [], _ => rfl
  | b :: bs, i => by
    unfold Memory.ofBytesFrom
    split
    · exact Memory.wfFrom_mono (by omega) (Memory.wfFrom_ofBytesFrom bs (i + 1))
    · rw [Memory.wfFrom_cons]
      exact ⟨le_rfl, ‹_›, Memory.wfFrom_ofBytesFrom bs (i + 1)⟩

theorem Memory.wf_ofBytes (bs : List Byte) : (Memory.ofBytes bs).wf = true := Memory.wfFrom_ofBytesFrom bs 0

theorem Memory.read_ofBytesFrom :
    (bs : List Byte) → (i j : Nat) → (Memory.ofBytesFrom i bs).read (i + j) = bs.getD j Memory.unlisted
  | [], _, _ => rfl
  | b :: bs, i, 0 => by
    unfold Memory.ofBytesFrom
    split
    · rw [Memory.read_of_lt (lo := i + 1) (by omega) (Memory.wfFrom_ofBytesFrom bs (i + 1))]
      simp_all
    · simp
  | b :: bs, i, j + 1 => by
    have h := Memory.read_ofBytesFrom bs (i + 1) j
    rw [show i + 1 + j = i + (j + 1) by omega] at h
    unfold Memory.ofBytesFrom
    split
    · simpa using h
    · rw [Memory.read_cons, if_neg (by omega), h]
      simp

/-- The loaded list reads as its bytes, and 0x00 beyond them (20_memory.md R49). -/
theorem Memory.read_ofBytes (bs : List Byte) (j : Nat) : (Memory.ofBytes bs).read j = bs.getD j Memory.unlisted := by
  rw [← Memory.read_ofBytesFrom bs 0 j, Nat.zero_add, Memory.ofBytes]

/-- The loaded list lists nothing at or beyond its length. -/
theorem Memory.below_ofBytesFrom : (bs : List Byte) → (i : Nat) → (Memory.ofBytesFrom i bs).below (i + bs.length) = true
  | [], _ => rfl
  | b :: bs, i => by
    have h := Memory.below_ofBytesFrom bs (i + 1)
    rw [show i + 1 + bs.length = i + (b :: bs).length by simp; omega] at h
    unfold Memory.ofBytesFrom
    split
    · exact h
    · unfold Memory.below at h ⊢
      simp only [List.all_cons, Bool.and_eq_true, decide_eq_true_eq]
      exact ⟨by simp, h⟩

theorem Memory.below_mono {n n' : Nat} (h : n ≤ n') {m : Memory} (hm : m.below n = true) : m.below n' = true := by
  simp only [Memory.below, List.all_eq_true, decide_eq_true_eq] at hm ⊢
  exact fun c hc => (hm c hc).trans_le h

/-- Nothing is listed exactly when every byte reads as unlisted. -/
theorem Memory.eq_nil_of_read {m : Memory} (h : m.wf = true) (hr : ∀ i, m.read i = Memory.unlisted) : m = [] :=
  Memory.eq_of_read h rfl fun i => by rw [hr i, Memory.read_nil]

end Sys2Proof.Machine
end

