-- ==== Sys2Proof/Laws/Ops.lean ====
section
/-! SUPPORT. One lemma per case of each shared operation, and the decoder's view of the buffer. -/

namespace Sys2Proof.Machine

variable {s : State}

/-! ### Parameters -/

/-- "00_scope.md rule R2 gives `CAP >= 12`" (41_frame_decoder.md R92). -/
theorem twelve_le_cap (c : Config) : 12 ≤ c.cap := by
  have := c.four_le_maxPayload
  unfold Config.cap
  omega

theorem State.writeCursor_lt_cap (s : State) : s.writeCursor < s.config.cap := by
  have := twelve_le_cap s.config
  unfold State.writeCursor
  split <;> omega

/-- The counter does not wrap on its way to the threshold (10_state.md R19). -/
theorem nextIdleTicks_of_le {c : Config} {n : Nat} (h : n ≤ c.idleThreshold) : nextIdleTicks c n = n + 1 :=
  Nat.mod_eq_of_lt (lt_of_le_of_lt (by omega) c.idleThreshold_fits)

theorem storeAnswer_lt (s : State) : s.storeAnswer < 2 ^ s.config.writtenBits := Nat.mod_lt _ (by positivity)

/-! ### The receiver -/

theorem State.rxByte_dropped (b : Byte) (h : s.frameReady = true) : s.rxByte b = s := if_pos h

theorem State.rxByte_accepted (b : Byte) (h : s.frameReady = false) :
    s.rxByte b = { s with
      buf := s.buf.write s.writeCursor b, tail := s.writeCursor + 1, receiving := true, idleTicks := 0 } := by
  simp [State.rxByte, h]

theorem State.tick_inactive (h : s.receiving = false) : s.tick = s := by simp [State.tick, h]

theorem State.tick_counts (h : s.receiving = true) (hi : s.idleTicks < s.config.idleThreshold) :
    s.tick = { s with idleTicks := s.idleTicks + 1 } := by
  simp [State.tick, h, nextIdleTicks_of_le hi.le, idleExpired, hi]

theorem State.tick_expires (h : s.receiving = true) (hi : s.idleTicks = s.config.idleThreshold) :
    s.tick = { s with idleTicks := s.config.idleThreshold + 1, frameReady := true, receiving := false } := by
  simp [State.tick, h, hi, nextIdleTicks_of_le le_rfl, idleExpired]

theorem State.clear_idle (h : s.phase = .idle) : s.clear = s.clearReceiver := if_pos h

theorem State.clear_busy (h : s.phase ≠ .idle) : s.clear = s := if_neg h

theorem State.seqStart_ready (h : s.frameReady = true) : s.seqStart = { s with phase := .decoding } := if_pos h

theorem State.seqStart_waits (h : s.frameReady = false) : s.seqStart = s := by simp [State.seqStart, h]

/-! ### Turns -/

theorem State.nextTurn_cons {t : Turn} {ts : List Turn} (h : s.schedule = t :: ts) : s.nextTurn = t := by
  simp [State.nextTurn, h]

theorem State.nextTurn_nil (h : s.schedule = []) : s.nextTurn = .sequencer := by simp [State.nextTurn, h]

theorem State.popTurn_nil (h : s.schedule = []) : s.popTurn = s := by
  cases s
  simp_all [State.popTurn]

/-! ### The buffer as the decoder reads it -/

@[simp] theorem State.length_bufBytes (s : State) : s.bufBytes.length = s.config.cap := Memory.length_readRange _ _ _

theorem State.getElem?_bufBytes (s : State) (i : Nat) :
    s.bufBytes[i]? = if i < s.config.cap then some (s.buf.read i) else none := by
  simp [State.bufBytes, Memory.getElem?_readRange]

/-- The buffer begins with the five bytes up to the length, then the body (30_encoding.md R51). -/
theorem State.bufBytes_eq (s : State) :
    s.bufBytes = s.buf.read 0 :: s.buf.read 1 :: s.buf.read 2 :: s.buf.read 3 :: s.buf.read 4 ::
      s.buf.readRange 5 (s.config.maxPayload + 3) := rfl

end Sys2Proof.Machine
end

