-- ==== Sys2Proof/Laws/PerInstr.lean ====
section
/-! SUPPORT. The per-instruction family SelectorRoundTrip: the command byte of a received frame selects that very instruction, with
every open bit of the command byte kept (30_encoding.md R54). -/

namespace Sys2Proof.Laws.SelectorRoundTrip

/-- The command byte and the payload of a received instruction give the instruction back. -/
def Statement (i : Instr) : Prop := i.isReceived = true → ofCmd i.cmd i.payload = i

theorem data (p : List Byte) : Statement (.data p) := fun _ =>
  congrFun (show ofCmd (Instr.data []).cmd = Instr.data by rfl) p
theorem begin (p : List Byte) : Statement (.begin p) := fun _ =>
  congrFun (show ofCmd (Instr.begin []).cmd = Instr.begin by rfl) p
theorem end_ (p : List Byte) : Statement (.end_ p) := fun _ =>
  congrFun (show ofCmd (Instr.end_ []).cmd = Instr.end_ by rfl) p
theorem rsvd03 (p : List Byte) : Statement (.rsvd03 p) := fun _ =>
  congrFun (show ofCmd (Instr.rsvd03 []).cmd = Instr.rsvd03 by rfl) p
theorem rsvd04_07 (low : BitVec 2) (p : List Byte) : Statement (.rsvd04_07 low p) := fun _ => by
  have h : ∀ n, n < 2 ^ 2 → ofCmd (Instr.rsvd04_07 (BitVec.ofNat 2 n) []).cmd = Instr.rsvd04_07 (BitVec.ofNat 2 n) := fun n hn => by
    interval_cases n <;> rfl
  have := congrFun (h low.toNat low.isLt) p
  simp only [BitVec.ofNat_toNat, BitVec.setWidth_eq] at this
  exact this
theorem rsvd08_0F (low : BitVec 3) (p : List Byte) : Statement (.rsvd08_0F low p) := fun _ => by
  have h : ∀ n, n < 2 ^ 3 → ofCmd (Instr.rsvd08_0F (BitVec.ofNat 3 n) []).cmd = Instr.rsvd08_0F (BitVec.ofNat 3 n) := fun n hn => by
    interval_cases n <;> rfl
  have := congrFun (h low.toNat low.isLt) p
  simp only [BitVec.ofNat_toNat, BitVec.setWidth_eq] at this
  exact this
theorem rsvd10_1F (low : BitVec 4) (p : List Byte) : Statement (.rsvd10_1F low p) := fun _ => by
  have h : ∀ n, n < 2 ^ 4 → ofCmd (Instr.rsvd10_1F (BitVec.ofNat 4 n) []).cmd = Instr.rsvd10_1F (BitVec.ofNat 4 n) := fun n hn => by
    interval_cases n <;> rfl
  have := congrFun (h low.toNat low.isLt) p
  simp only [BitVec.ofNat_toNat, BitVec.setWidth_eq] at this
  exact this
theorem rsvd20_3F (low : BitVec 5) (p : List Byte) : Statement (.rsvd20_3F low p) := fun _ => by
  have h : ∀ n, n < 2 ^ 5 → ofCmd (Instr.rsvd20_3F (BitVec.ofNat 5 n) []).cmd = Instr.rsvd20_3F (BitVec.ofNat 5 n) := fun n hn => by
    interval_cases n <;> rfl
  have := congrFun (h low.toNat low.isLt) p
  simp only [BitVec.ofNat_toNat, BitVec.setWidth_eq] at this
  exact this
theorem rsvd40_7F (low : BitVec 6) (p : List Byte) : Statement (.rsvd40_7F low p) := fun _ => by
  have h : ∀ n, n < 2 ^ 6 → ofCmd (Instr.rsvd40_7F (BitVec.ofNat 6 n) []).cmd = Instr.rsvd40_7F (BitVec.ofNat 6 n) := fun n hn => by
    interval_cases n <;> rfl
  have := congrFun (h low.toNat low.isLt) p
  simp only [BitVec.ofNat_toNat, BitVec.setWidth_eq] at this
  exact this
theorem rsvd80_BF (low : BitVec 6) (p : List Byte) : Statement (.rsvd80_BF low p) := fun _ => by
  have h : ∀ n, n < 2 ^ 6 → ofCmd (Instr.rsvd80_BF (BitVec.ofNat 6 n) []).cmd = Instr.rsvd80_BF (BitVec.ofNat 6 n) := fun n hn => by
    interval_cases n <;> rfl
  have := congrFun (h low.toNat low.isLt) p
  simp only [BitVec.ofNat_toNat, BitVec.setWidth_eq] at this
  exact this
theorem rsvdC0_DF (low : BitVec 5) (p : List Byte) : Statement (.rsvdC0_DF low p) := fun _ => by
  have h : ∀ n, n < 2 ^ 5 → ofCmd (Instr.rsvdC0_DF (BitVec.ofNat 5 n) []).cmd = Instr.rsvdC0_DF (BitVec.ofNat 5 n) := fun n hn => by
    interval_cases n <;> rfl
  have := congrFun (h low.toNat low.isLt) p
  simp only [BitVec.ofNat_toNat, BitVec.setWidth_eq] at this
  exact this
theorem rsvdE0_EF (low : BitVec 4) (p : List Byte) : Statement (.rsvdE0_EF low p) := fun _ => by
  have h : ∀ n, n < 2 ^ 4 → ofCmd (Instr.rsvdE0_EF (BitVec.ofNat 4 n) []).cmd = Instr.rsvdE0_EF (BitVec.ofNat 4 n) := fun n hn => by
    interval_cases n <;> rfl
  have := congrFun (h low.toNat low.isLt) p
  simp only [BitVec.ofNat_toNat, BitVec.setWidth_eq] at this
  exact this
theorem rsvdF0_F7 (low : BitVec 3) (p : List Byte) : Statement (.rsvdF0_F7 low p) := fun _ => by
  have h : ∀ n, n < 2 ^ 3 → ofCmd (Instr.rsvdF0_F7 (BitVec.ofNat 3 n) []).cmd = Instr.rsvdF0_F7 (BitVec.ofNat 3 n) := fun n hn => by
    interval_cases n <;> rfl
  have := congrFun (h low.toNat low.isLt) p
  simp only [BitVec.ofNat_toNat, BitVec.setWidth_eq] at this
  exact this
theorem rsvdF8_FB (low : BitVec 2) (p : List Byte) : Statement (.rsvdF8_FB low p) := fun _ => by
  have h : ∀ n, n < 2 ^ 2 → ofCmd (Instr.rsvdF8_FB (BitVec.ofNat 2 n) []).cmd = Instr.rsvdF8_FB (BitVec.ofNat 2 n) := fun n hn => by
    interval_cases n <;> rfl
  have := congrFun (h low.toNat low.isLt) p
  simp only [BitVec.ofNat_toNat, BitVec.setWidth_eq] at this
  exact this
theorem rsvdFC_FD (low : BitVec 1) (p : List Byte) : Statement (.rsvdFC_FD low p) := fun _ => by
  have h : ∀ n, n < 2 ^ 1 → ofCmd (Instr.rsvdFC_FD (BitVec.ofNat 1 n) []).cmd = Instr.rsvdFC_FD (BitVec.ofNat 1 n) := fun n hn => by
    interval_cases n <;> rfl
  have := congrFun (h low.toNat low.isLt) p
  simp only [BitVec.ofNat_toNat, BitVec.setWidth_eq] at this
  exact this
theorem rsvdFE (p : List Byte) : Statement (.rsvdFE p) := fun _ =>
  congrFun (show ofCmd (Instr.rsvdFE []).cmd = Instr.rsvdFE by rfl) p
theorem ackRx (p : List Byte) : Statement (.ackRx p) := fun _ =>
  congrFun (show ofCmd (Instr.ackRx []).cmd = Instr.ackRx by rfl) p
theorem ackTx (c r : Byte) : Statement (.ackTx c r) := fun h => nomatch h

end Sys2Proof.Laws.SelectorRoundTrip
end

