-- ==== Sys2Proof/Laws/Step.lean ====
section
/-! SUPPORT. What `exec` and `step` can do, said once: one equation per turn, and the inversion lemmas the invariants are derived
from. -/

namespace Sys2Proof.Machine

variable {s s' : State}

/-! ### exec -/

/-- A command that only takes the result OK: END, a reserved command, a received ACK (42_command_dispatch.md R104 to R106). -/
def IsPassive : Instr → Prop
  | .data _ | .begin _ | .ackTx _ _ => False
  | _ => True

theorem exec_passive {i : Instr} (h : IsPassive i) (s : State) : exec i s = .next (s.takeResult .ok) := by
  cases i <;> first | rfl | exact h.elim

theorem exec_data (p : List Byte) (s : State) :
    exec (.data p) s = .next ({ s.storeWrite s.dataOffset p with
      bytesStored := bytesStoredAfter s.bytesStored s.storeAnswer p.length }.takeResult (writeResult s.storeAnswer p.length)) :=
  rfl

theorem exec_begin (p : List Byte) (s : State) :
    exec (.begin p) s = .next ({ s with baseOffset := s.beginOffset, bytesStored := 0 }.takeResult .ok) := rfl

theorem exec_ackTx (c r : Byte) (s : State) : exec (.ackTx c r) s = .next (s.txSend (ackFrame c r)).endService := rfl

/-- Everything an instruction can do. -/
theorem exec_cases {i : Instr} {t : State} (h : exec i s = .next t) :
    (∃ p, i = .data p ∧ t = { s.storeWrite s.dataOffset p with
        bytesStored := bytesStoredAfter s.bytesStored s.storeAnswer p.length }.takeResult (writeResult s.storeAnswer p.length)) ∨
    (∃ p, i = .begin p ∧ t = { s with baseOffset := s.beginOffset, bytesStored := 0 }.takeResult .ok) ∨
    (IsPassive i ∧ t = s.takeResult .ok) ∨
    (∃ c r, i = .ackTx c r ∧ t = (s.txSend (ackFrame c r)).endService) := by
  cases i with
  | data p => exact .inl ⟨p, rfl, (Host.Outcome.next.inj h).symm⟩
  | begin p => exact .inr (.inl ⟨p, rfl, (Host.Outcome.next.inj h).symm⟩)
  | ackTx c r => exact .inr (.inr (.inr ⟨c, r, rfl, (Host.Outcome.next.inj h).symm⟩))
  | _ => exact .inr (.inr (.inl ⟨trivial, (Host.Outcome.next.inj h).symm⟩))

/-! ### step, turn by turn -/

theorem step_reset (h : s.nextTurn = .reset) : step s = .next s.popTurn.resetBlock := by simp [step, h]

theorem step_clear (h : s.nextTurn = .clear) : step s = .next s.popTurn.clear := by simp [step, h]

theorem step_rxByte {b : Byte} (h : s.nextTurn = .rxByte b) : step s = .next (s.popTurn.rxByte b) := by simp [step, h]

theorem step_tick (h : s.nextTurn = .tick) : step s = .next s.popTurn.tick := by simp [step, h]

theorem step_sequencer (h : s.nextTurn = .sequencer) : step s = sequencerStep s.popTurn := by simp [step, h]

/-- Everything a step can do. -/
theorem step_cases (h : step s = .next s') :
    (s.nextTurn = .reset ∧ s' = s.popTurn.resetBlock) ∨
    (s.nextTurn = .clear ∧ s' = s.popTurn.clear) ∨
    (∃ b, s.nextTurn = .rxByte b ∧ s' = s.popTurn.rxByte b) ∨
    (s.nextTurn = .tick ∧ s' = s.popTurn.tick) ∨
    (s.nextTurn = .sequencer ∧ s.phase = .idle ∧ s' = s.popTurn.seqStart) ∨
    (s.nextTurn = .sequencer ∧ s.phase = .decoding ∧ ∃ i, s.popTurn.fetch = .valid i ∧ exec i s.popTurn = .next s') ∨
    (s.nextTurn = .sequencer ∧ s.phase = .decoding ∧
      ∃ e, s.popTurn.fetch = .invalid e ∧ e ≠ .indexOutOfRange ∧ s' = s.popTurn.raiseVerificationError) ∨
    (s.nextTurn = .sequencer ∧ s.phase = .ackPending ∧ s' = (s.popTurn.txSend (ackFrame s.ackCmd s.ackRes)).endService) := by
  cases ht : s.nextTurn with
  | reset => simpa using (Host.Outcome.next.inj (step_reset ht ▸ h)).symm
  | clear => simpa using (Host.Outcome.next.inj (step_clear ht ▸ h)).symm
  | rxByte b => simpa using (Host.Outcome.next.inj (step_rxByte ht ▸ h)).symm
  | tick => simpa using (Host.Outcome.next.inj (step_tick ht ▸ h)).symm
  | sequencer =>
    rw [step_sequencer ht, sequencerStep, State.popTurn_phase] at h
    cases hp : s.phase with
    | idle =>
      rw [hp] at h
      simpa using (Host.Outcome.next.inj h).symm
    | decoding =>
      simp only [hp] at h
      cases hf : s.popTurn.fetch with
      | valid i => simpa [hf] using h
      | invalid e =>
        simp only [hf] at h
        cases e <;> simp_all
    | ackPending =>
      simp only [hp, exec_ackTx, State.popTurn_ackCmd, State.popTurn_ackRes] at h
      simpa using (Host.Outcome.next.inj h).symm

end Sys2Proof.Machine
end

