-- ==== Sys2Proof/Laws/Run.lean ====
section
/-! SUPPORT. What happens when a turn is offered, executions turn by turn, and the core's run. -/

namespace Sys2Proof.Machine

variable {s s' : State}

@[simp] theorem State.offer_nextTurn (t : Turn) (s : State) : (s.offer t).nextTurn = t := rfl

@[simp] theorem State.offer_popTurn (t : Turn) (s : State) : (s.offer t).popTurn = s := rfl

theorem step_offer_reset (s : State) : step (s.offer .reset) = .next s.resetBlock := rfl

theorem step_offer_clear (s : State) : step (s.offer .clear) = .next s.clear := rfl

theorem step_offer_rxByte (b : Byte) (s : State) : step (s.offer (.rxByte b)) = .next (s.rxByte b) := rfl

theorem step_offer_tick (s : State) : step (s.offer .tick) = .next s.tick := rfl

theorem step_offer_sequencer (s : State) : step (s.offer .sequencer) = sequencerStep s := rfl

theorem runTurns_cons {t : Turn} {ts : List Turn} (h : step (s.offer t) = .next s') :
    runTurns (t :: ts) s = runTurns ts s' := by
  simp only [runTurns, h]

theorem runTurns_append {ts us : List Turn} (h : runTurns ts s = .next s') : runTurns (ts ++ us) s = runTurns us s' := by
  induction ts generalizing s with
  | nil => rw [Host.Outcome.next.inj h, List.nil_append]
  | cons t ts ih =>
    simp only [runTurns, List.cons_append] at h ⊢
    cases hs : step (s.offer t) with
    | next u =>
      simp only [hs] at h ⊢
      exact ih h
    | fault r => simp [hs] at h
    | refused r => simp [hs] at h

/-- One step of a run. -/
theorem Core.run_succ (M : Host.Core) {a b : M.State} (n : Nat) (h : M.step a = .next b) : M.run (n + 1) a = M.run n b := by
  simp only [Host.Core.run, h]

end Sys2Proof.Machine
end

