-- ==== Sys2Proof/Tests/Slice0.lean ====
section
/-! SUPPORT. The author's tests. Expected results are the vectors of 95_test_vectors.md (V, X, A, T, Q, E), the layout of
30_encoding.md, or hand calculation from them; every frame is written out byte by byte. The `witness_` theorems show, for each
statement with hypotheses, concrete values that meet all of them. -/

namespace Sys2Proof.Tests

open Sys2Proof Sys2Proof.Machine

/-! ### Small states -/

/-- A block of 12 bytes, payloads up to 4, completion after 3 ticks; it lies at the bounds of 00_scope.md R2 and R3. -/
def small : Config where
  maxPayload := 4
  idleThreshold := 2
  overlenPolicy := .reject
  idleBits := 2
  writtenBits := 16
  four_le_maxPayload := by decide
  maxPayload_le := by decide
  one_le_idleThreshold := by decide
  idleThreshold_fits := by decide
  sixteen_le_writtenBits := by decide

def smallClamp : Config := { small with overlenPolicy := .clamp }

/-- At rest and empty, with the storage answers given. -/
def empty (answers : List Nat := []) : State := { State.reset with config := small, storeAnswers := answers }

/-- A complete candidate frame in the buffer, in a phase, with a session `(0x1000, 5)` and the storage answers given. -/
def loaded (bs : List Byte) (phase : Phase := .decoding) (answers : List Nat := []) : State :=
  { empty answers with
    buf := Memory.ofBytes bs, tail := bs.length, idleTicks := 3, frameReady := true, phase := phase
    baseOffset := 0x1000, bytesStored := 5 }

/-- Some bytes received, some ticks ago. -/
def receiving (bs : List Byte) (ticks : Nat := 0) : State :=
  { empty with buf := Memory.ofBytes bs, tail := bs.length, receiving := true, idleTicks := ticks }

/-- A fact about the next state; false where there is none. -/
def holds (o : Host.Outcome State Fault Refusal) (p : State → Bool) : Bool :=
  match o with
  | .next t => p t
  | .fault _ => false
  | .refused _ => false

/-- The receiver half as 95_test_vectors.md writes it. -/
def rcv (t : State) : Nat × Bool × Nat × Bool := (t.tail, t.receiving, t.idleTicks, t.frameReady)

/-- The session half and the latches. -/
def session (t : State) : Offset × Offset × Byte × Byte := (t.baseOffset, t.bytesStored, t.ackCmd, t.ackRes)

def v1 : List Byte := [0xC5, 0x5C, 0x02, 0x00, 0x00, 0x02, 0x5A, 0xA5]
def v2 : List Byte := [0xC5, 0x5C, 0x01, 0x00, 0x04, 0x00, 0x00, 0x10, 0x00, 0x15, 0x5A, 0xA5]
def v3 : List Byte := [0xC5, 0x5C, 0x00, 0x00, 0x04, 0xAA, 0xBB, 0xCC, 0xDD, 0x04, 0x5A, 0xA5]
/-- `DATA 44 55` of X3. -/
def x3 : List Byte := [0xC5, 0x5C, 0x00, 0x00, 0x02, 0x44, 0x55, 0x13, 0x5A, 0xA5]
/-- V20: cut short, fails the checksum. -/
def v20 : List Byte := [0xC5, 0x5C, 0x02]

/-! ### WellFormed: each check refuses an ill-formed term -/

theorem test_wellFormed_refuses_long_payload :
    (Instr.data [1, 2, 3, 4]).wellFormed small = true ∧ (Instr.data [1, 2, 3, 4, 5]).wellFormed small = false ∧
    (Instr.rsvd40_7F 0x3E [1, 2, 3, 4, 5]).wellFormed small = false := by decide

theorem test_wellFormed_refuses_result_unknown :
    (Instr.ackTx 0x7E 0x02).wellFormed small = true ∧ (Instr.ackTx 0x7E 0xFF).wellFormed small = false := by decide

/-! ### Decoding, every constructor -/

theorem test_decode_session :
    decode Config.reference v1 = .valid (.end_ []) ∧
    decode Config.reference v2 = .valid (.begin [0x00, 0x00, 0x10, 0x00]) ∧
    decode Config.reference v3 = .valid (.data [0xAA, 0xBB, 0xCC, 0xDD]) := by decide

theorem test_decode_reserved_low :
    decode small [0xC5, 0x5C, 0x03, 0x00, 0x01, 0x99, 0x9B, 0x5A, 0xA5] = .valid (.rsvd03 [0x99]) ∧
    decode small [0xC5, 0x5C, 0x06, 0x00, 0x00, 0x06, 0x5A, 0xA5] = .valid (.rsvd04_07 2 []) ∧
    decode small [0xC5, 0x5C, 0x0B, 0x00, 0x00, 0x0B, 0x5A, 0xA5] = .valid (.rsvd08_0F 3 []) ∧
    decode small [0xC5, 0x5C, 0x1A, 0x00, 0x00, 0x1A, 0x5A, 0xA5] = .valid (.rsvd10_1F 10 []) ∧
    decode small [0xC5, 0x5C, 0x31, 0x00, 0x00, 0x31, 0x5A, 0xA5] = .valid (.rsvd20_3F 17 []) ∧
    decode small [0xC5, 0x5C, 0x7E, 0x00, 0x00, 0x7E, 0x5A, 0xA5] = .valid (.rsvd40_7F 0x3E []) := by decide

theorem test_decode_reserved_high :
    decode small [0xC5, 0x5C, 0x80, 0x00, 0x00, 0x80, 0x5A, 0xA5] = .valid (.rsvd80_BF 0 []) ∧
    decode small [0xC5, 0x5C, 0xDF, 0x00, 0x00, 0xDF, 0x5A, 0xA5] = .valid (.rsvdC0_DF 31 []) ∧
    decode small [0xC5, 0x5C, 0xE5, 0x00, 0x00, 0xE5, 0x5A, 0xA5] = .valid (.rsvdE0_EF 5 []) ∧
    decode small [0xC5, 0x5C, 0xF6, 0x00, 0x00, 0xF6, 0x5A, 0xA5] = .valid (.rsvdF0_F7 6 []) ∧
    decode small [0xC5, 0x5C, 0xF9, 0x00, 0x00, 0xF9, 0x5A, 0xA5] = .valid (.rsvdF8_FB 1 []) ∧
    decode small [0xC5, 0x5C, 0xFD, 0x00, 0x00, 0xFD, 0x5A, 0xA5] = .valid (.rsvdFC_FD 1 []) ∧
    decode small [0xC5, 0x5C, 0xFE, 0x00, 0x00, 0xFE, 0x5A, 0xA5] = .valid (.rsvdFE []) := by decide

/-- X12 received; A9 as the block emits it. -/
theorem test_decode_ack :
    decode small [0xC5, 0x5C, 0xFF, 0x00, 0x02, 0x01, 0x00, 0xFC, 0x5A, 0xA5] = .valid (.ackRx [0x01, 0x00]) ∧
    decodeTx [0xC5, 0x5C, 0xFF, 0x00, 0x02, 0x7E, 0x00, 0x83, 0x5A, 0xA5] = .valid (.ackTx 0x7E 0x00) ∧
    decodeTx [0xC5, 0x5C, 0xFE, 0x00, 0x02, 0x7E, 0x00, 0x82, 0x5A, 0xA5] = .invalid .headMismatch := by decide

/-- The words of the opcode table: a selector byte, and the ten bytes of ACK_TX, the first byte lowest (log 9, log 10). -/
theorem test_decodeTableWord :
    decodeTableWord 8 0x00 = some (.data []) ∧ decodeTableWord 8 0xFF = some (.ackRx []) ∧
    decodeTableWord 8 0x7E = some (.rsvd40_7F 0x3E []) ∧
    decodeTableWord 80 0xA55A83007E0200FF5CC5 = some (.ackTx 0x7E 0x00) ∧
    decodeTableWord 80 0xA55A0000000200FF5CC5 = some (.ackTx 0x00 0x00) := ⟨rfl, rfl, rfl, rfl, rfl⟩

/-! ### The decoder's rejections (V5 to V22) -/

theorem test_decode_corrupted :
    decode small [0xC5, 0x5C, 0x01, 0x00, 0x04, 0xAA, 0xBB, 0xCC, 0xDD, 0x04, 0x5A, 0xA5] = .invalid .checksumMismatch ∧
    decode small [0xC5, 0x5C, 0x00, 0x00, 0x04, 0x2A, 0xBB, 0xCC, 0xDD, 0x04, 0x5A, 0xA5] = .invalid .checksumMismatch ∧
    decode small [0xC4, 0x5C, 0x00, 0x00, 0x04, 0xAA, 0xBB, 0xCC, 0xDD, 0x04, 0x5A, 0xA5] = .invalid .headMismatch ∧
    decode small [0xC5, 0x5D, 0x00, 0x00, 0x04, 0xAA, 0xBB, 0xCC, 0xDD, 0x04, 0x5A, 0xA5] = .invalid .headMismatch ∧
    decode small [0xC5, 0x5C, 0x00, 0x00, 0x04, 0xAA, 0xBB, 0xCC, 0xDD, 0x04, 0x5B, 0xA5] = .invalid .trailerMismatch ∧
    decode small [0xC5, 0x5C, 0x00, 0x00, 0x04, 0xAA, 0xBB, 0xCC, 0xDD, 0x04, 0x5A, 0xA4] = .invalid .trailerMismatch := by decide

/-- V9: a one-bit error in a length byte can be accepted. -/
theorem test_decode_length_corruption_accepted :
    decode Config.reference [0xC5, 0x5C, 0x00, 0x00, 0x08, 0x00, 0x5A, 0xA5, 0, 0, 0, 0, 0, 0xF7, 0x5A, 0xA5] =
      .valid (.data [0x00, 0x5A, 0xA5, 0, 0, 0, 0, 0]) ∧
    decode Config.reference [0xC5, 0x5C, 0x00, 0x00, 0x00, 0x00, 0x5A, 0xA5, 0, 0, 0, 0, 0, 0xF7, 0x5A, 0xA5] =
      .valid (.data []) := by decide

/-- V18 to V21 and V24 in the buffer, then zeros. -/
theorem test_decode_short_candidates :
    (loaded [0x00]).fetch = .invalid .headMismatch ∧ (loaded [0xC5, 0x5C]).fetch = .invalid .trailerMismatch ∧
    (loaded v20).fetch = .invalid .checksumMismatch ∧
    (loaded [0xC5, 0x5C, 0x02, 0x00, 0x00, 0x02, 0x5A]).fetch = .invalid .trailerMismatch ∧
    (loaded [0x00, 0x5C, 0x00, 0x00, 0x01, 0xAA, 0xAA, 0x5A, 0x00]).fetch = .invalid .headMismatch := by decide

/-- V17 at 4 bytes: declared length 5, checksum and trailer placed where the clamped length points. -/
theorem test_decode_overlength :
    decode small [0xC5, 0x5C, 0x00, 0x00, 0x05, 0, 0, 0, 0, 0x05, 0x5A, 0xA5] = .invalid .lengthTooLarge ∧
    decode smallClamp [0xC5, 0x5C, 0x00, 0x00, 0x05, 0, 0, 0, 0, 0x05, 0x5A, 0xA5] = .valid (.data [0, 0, 0, 0]) := by decide

/-! ### The receiver (T) -/

/-- T1, T6 and T9 at 12 bytes: the first byte, a byte dropped, and the byte after a full buffer. -/
theorem test_rxByte :
    holds (step (empty.offer (.rxByte 0xC5))) (fun t => rcv t == (1, true, 0, false) && t.buf == [(0, 0xC5)]) = true ∧
    holds (step ((loaded v1 .idle).offer (.rxByte 0x5C))) (fun t => t == loaded v1 .idle) = true ∧
    holds (step ((receiving (List.replicate 12 0x11) 2).offer (.rxByte 0x22)))
      (fun t => rcv t == (1, true, 0, false) && t.buf.read 0 == 0x22 && t.buf.read 1 == 0x11 && t.buf.read 11 == 0x11) = true := by
  decide

/-- Writing 0x00 over a byte removes its entry, so that equal buffers are equal data. -/
theorem test_rxByte_zero_is_canonical :
    holds (step ({ receiving [0x11, 0x22] with tail := 1 }.offer (.rxByte 0x00))) (fun t => t.buf == [(0, 0x11)]) = true := by
  decide

/-- T2, T3, T4 and T7 with threshold 2: idle, counting, the third tick, and after it. -/
theorem test_tick :
    holds (step (empty.offer .tick)) (fun t => t == empty) = true ∧
    holds (step ((receiving [0xC5] 1).offer .tick)) (fun t => rcv t == (1, true, 2, false)) = true ∧
    holds (step ((receiving [0xC5] 2).offer .tick)) (fun t => rcv t == (1, false, 3, true)) = true ∧
    holds (step ((loaded v1 .idle).offer .tick)) (fun t => rcv t == (8, false, 3, true)) = true := by decide

/-- T10, T11. -/
theorem test_clear :
    holds (step ((loaded v1 .idle).offer .clear)) (fun t => rcv t == (0, false, 0, false) && t.buf == [] && t.outputs == []) = true ∧
    holds (step ((loaded v1).offer .clear)) (fun t => t == loaded v1) = true := by decide

/-- T12 and 00_scope.md R7: the byte first, then the tick. -/
theorem test_same_cycle_order :
    Cycle.turns { tick := true, sequencer := true, rxByte := some 0x5C, clear := true, reset := true } =
      [.reset, .clear, .rxByte 0x5C, .tick, .sequencer] ∧
    holds (runTurns (Cycle.turns { rxByte := some 0x5C, tick := true }) (receiving [0xC5] 2))
      (fun t => rcv t == (2, true, 1, false)) = true := by decide

/-- Q4: a Reset before the ACK; no TxSend. -/
theorem test_reset :
    holds (step ((loaded v1 .ackPending).offer .reset)) (fun t => t == empty) = true := by decide

/-! ### The instructions (X, A) -/

/-- X3, X4. -/
theorem test_exec_data :
    holds (exec (.data [0x44, 0x55]) { loaded x3 .decoding [2] with bytesStored := 3 }) (fun t =>
      session t == (0x1000, 5, 0x00, 0x00) && t.phase == .ackPending &&
      t.outputs == [.storeWrite 0x1003 2 [0x44, 0x55] 2] && t.storeAnswers == []) = true ∧
    holds (exec (.data [0x44, 0x55]) { loaded x3 .decoding [1] with bytesStored := 3 }) (fun t =>
      session t == (0x1000, 3, 0x00, 0x02) && t.outputs == [.storeWrite 0x1003 2 [0x44, 0x55] 1]) = true := by decide

/-- X6: an empty DATA is written; X16: the offset and the sum wrap. -/
theorem test_exec_data_corners :
    holds (exec (.data []) (loaded [0xC5, 0x5C, 0x00, 0x00, 0x00, 0x00, 0x5A, 0xA5] .decoding [0])) (fun t =>
      session t == (0x1000, 5, 0x00, 0x00) && t.outputs == [.storeWrite 0x1005 0 [] 0]) = true ∧
    holds (exec (.data [0x05]) { loaded [0xC5, 0x5C, 0x00, 0x00, 0x01, 0x05, 0x04, 0x5A, 0xA5] .decoding [1] with
        baseOffset := 0xFFFFFFFE, bytesStored := 4 }) (fun t =>
      session t == (0xFFFFFFFE, 5, 0x00, 0x00) && t.outputs == [.storeWrite 0x00000002 1 [0x05] 1]) = true := by decide

/-- X1; X14: an offset read into the checksum byte. -/
theorem test_exec_begin :
    holds (exec (.begin [0x00, 0x00, 0x10, 0x00]) (loaded v2)) (fun t => session t == (0x1000, 0, 0x01, 0x00)) = true ∧
    holds (exec (.begin [0x12, 0x34, 0x56]) (loaded [0xC5, 0x5C, 0x01, 0x00, 0x03, 0x12, 0x34, 0x56, 0x72, 0x5A, 0xA5]))
      (fun t => session t == (0x12345672, 0, 0x01, 0x00)) = true := by decide

/-- X8. -/
theorem test_exec_end :
    holds (exec (.end_ []) (loaded v1)) (fun t => session t == (0x1000, 5, 0x02, 0x00) && t.outputs == []) = true := by decide

/-- X10, X11, X12: the whole command byte is echoed, open bits included. -/
theorem test_exec_passive :
    holds (step ((loaded [0xC5, 0x5C, 0x7E, 0x00, 0x00, 0x7E, 0x5A, 0xA5]).offer .sequencer))
      (fun t => session t == (0x1000, 5, 0x7E, 0x00)) = true ∧
    holds (step ((loaded [0xC5, 0x5C, 0xFE, 0x00, 0x00, 0xFE, 0x5A, 0xA5]).offer .sequencer))
      (fun t => session t == (0x1000, 5, 0xFE, 0x00)) = true ∧
    holds (step ((loaded [0xC5, 0x5C, 0xFF, 0x00, 0x02, 0x01, 0x00, 0xFC, 0x5A, 0xA5]).offer .sequencer))
      (fun t => session t == (0x1000, 5, 0xFF, 0x00)) = true := by decide

/-- A10, and the receiver reopened. -/
theorem test_exec_ackTx :
    holds (exec (.ackTx 0x5A 0x01) (loaded v1 .ackPending)) (fun t =>
      t.outputs == [.txSend [0xC5, 0x5C, 0xFF, 0x00, 0x02, 0x5A, 0x01, 0xA6, 0x5A, 0xA5] 10] &&
      rcv t == (0, false, 0, false) && t.phase == .idle && t.buf == []) = true := by decide

/-! ### The sequencer (Q, E) -/

/-- X17, E3: a frame that fails verification asks the storage nothing and echoes buf[2]. -/
theorem test_verification_error :
    holds (step ((loaded [0xC5, 0x5C, 0x01, 0x00, 0x04, 0xAA, 0xBB, 0xCC, 0xDD, 0x04, 0x5A, 0xA5]).offer .sequencer))
      (fun t => session t == (0x1000, 5, 0x01, 0x01) && t.outputs == [] && t.phase == .ackPending) = true := by decide

/-- Q1, Q2: the polled sequencer at rest; a whole service of END. -/
theorem test_service :
    holds (step (empty.offer .sequencer)) (fun t => t == empty) = true ∧
    holds (runTurns [.sequencer, .sequencer, .sequencer] (loaded v1 .idle)) (fun t =>
      t.outputs == [.txSend [0xC5, 0x5C, 0xFF, 0x00, 0x02, 0x02, 0x00, 0xFF, 0x5A, 0xA5] 10] &&
      session t == (0x1000, 5, 0x02, 0x00) && rcv t == (0, false, 0, false)) = true := by decide

/-- A table word is what the very next step runs, right after reset: END, BEGIN (X13's bytes), ACK_TX. -/
theorem test_withFetchWord :
    (match step (State.reset.withFetchWord 8 0x02) with | .next t => session t | _ => (9, 9, 9, 9)) = (0, 0, 0x02, 0x00) ∧
    (match step (State.reset.withFetchWord 8 0x01) with | .next t => session t | _ => (9, 9, 9, 9)) =
      (0x015AA500, 0, 0x01, 0x00) ∧
    (match step (State.reset.withFetchWord 80 0xA55A83007E0200FF5CC5) with | .next t => t.outputs | _ => []) =
      [.txSend [0xC5, 0x5C, 0xFF, 0x00, 0x02, 0x7E, 0x00, 0x83, 0x5A, 0xA5] 10] := ⟨rfl, rfl, rfl⟩

/-! ### Witnesses: safe states -/

theorem witness_safe_empty : (empty : State).Safe := by
  constructor <;> first | decide | exact fun _ _ => ⟨rfl, rfl, fun _ => rfl⟩

theorem witness_safe_receiving :
    (receiving [0xC5] 0).Safe ∧ (receiving [0xC5] 1).Safe ∧ (receiving [0xC5] 2).Safe ∧
    (receiving (List.replicate 12 0x11) 2).Safe := by
  refine ⟨?_, ?_, ?_, ?_⟩ <;> constructor <;> first | decide | (intro _ h; cases h)

theorem witness_safe_idle_ready : (loaded v1 .idle).Safe := by
  constructor <;> first | decide | (intro h; cases h)

theorem witness_safe_busy : (loaded v1 .decoding).Safe ∧ (loaded v1 .ackPending).Safe ∧ (loaded v20 .decoding).Safe := by
  refine ⟨?_, ?_, ?_⟩ <;> constructor <;> first | decide | (intro h; cases h)

/-! ### Witnesses: the hypotheses of the statements, at the ends of their ranges -/

theorem witness_DecodeOfEncodeGivesTheInstructionBack :
    (Instr.data [1, 2, 3, 4]).wellFormed small = true ∧ (Instr.data [1, 2, 3, 4]).isReceived = true ∧
    (Instr.begin []).wellFormed small = true ∧ (Instr.begin []).isReceived = true ∧
    (Instr.ackTx 0xFF 0x02).wellFormed small = true ∧ (Instr.ackTx 0xFF 0x02).isReceived = false := by decide

/-- Both branches: an encoding with bytes after it, and a clamped frame. -/
theorem witness_DecodeAcceptsOnlyEncodings :
    decode small (v1 ++ v1) = .valid (.end_ []) ∧ v1 ++ v1 = encode (.end_ []) ++ v1 ∧
    decode smallClamp [0xC5, 0x5C, 0x00, 0x00, 0x05, 0, 0, 0, 0, 0x05, 0x5A, 0xA5] = .valid (.data [0, 0, 0, 0]) ∧
    smallClamp.overlenPolicy = .clamp ∧ smallClamp.maxPayload < be16 0x00 0x05 := by decide

/-- The first and the last command byte of the reserved rows. -/
theorem witness_EveryCommandByteSelectsItsRow :
    ofCmd 0x03 [] = .rsvd03 [] ∧ ofCmd 0x04 [] = .rsvd04_07 0 [] ∧ ofCmd 0x07 [] = .rsvd04_07 3 [] ∧
    ofCmd 0x08 [] = .rsvd08_0F 0 [] ∧ ofCmd 0x0F [] = .rsvd08_0F 7 [] ∧ ofCmd 0x10 [] = .rsvd10_1F 0 [] ∧
    ofCmd 0x1F [] = .rsvd10_1F 15 [] ∧ ofCmd 0x20 [] = .rsvd20_3F 0 [] ∧ ofCmd 0x3F [] = .rsvd20_3F 31 [] ∧
    ofCmd 0x40 [] = .rsvd40_7F 0 [] ∧ ofCmd 0x7F [] = .rsvd40_7F 63 [] ∧ ofCmd 0x80 [] = .rsvd80_BF 0 [] ∧
    ofCmd 0xBF [] = .rsvd80_BF 63 [] ∧ ofCmd 0xC0 [] = .rsvdC0_DF 0 [] ∧ ofCmd 0xDF [] = .rsvdC0_DF 31 [] ∧
    ofCmd 0xE0 [] = .rsvdE0_EF 0 [] ∧ ofCmd 0xEF [] = .rsvdE0_EF 15 [] ∧ ofCmd 0xF0 [] = .rsvdF0_F7 0 [] ∧
    ofCmd 0xF7 [] = .rsvdF0_F7 7 [] ∧ ofCmd 0xF8 [] = .rsvdF8_FB 0 [] ∧ ofCmd 0xFB [] = .rsvdF8_FB 3 [] ∧
    ofCmd 0xFC [] = .rsvdFC_FD 0 [] ∧ ofCmd 0xFD [] = .rsvdFC_FD 1 [] ∧ ofCmd 0xFE [] = .rsvdFE [] := by decide

/-- An accepted frame of the largest length, a clamped one, and each of the four rejections. -/
theorem witness_DecoderFollowsItsPseudocode :
    decodeByIndex small (loaded v3).buf.read = some (0x00, 4) ∧
    decodeByIndex smallClamp (Memory.ofBytes [0xC5, 0x5C, 0x00, 0x00, 0x05, 0, 0, 0, 0, 0x05, 0x5A, 0xA5]).read = some (0x00, 4) ∧
    decodeByIndex small (loaded [0x00]).buf.read = none ∧ decodeByIndex small (loaded v20).buf.read = none ∧
    decodeByIndex small (loaded [0xC5, 0x5C]).buf.read = none ∧
    decodeByIndex small (loaded [0xC5, 0x5C, 0x00, 0x00, 0x05]).buf.read = none := by decide

/-- Each sentinel wrong in turn behind the right checksum, and the last one wrong behind a wrong checksum too (V10 to V13). -/
theorem witness_SentinelCorruptionIsAlwaysReported :
    [0xAA, 0xBB, 0xCC, 0xDD].length ≤ small.maxPayload ∧ frameChecksum 0x00 [0xAA, 0xBB, 0xCC, 0xDD] = 0x04 ∧
    (0xC4 : Byte) ≠ head1 ∧ (0x5D : Byte) ≠ head2 ∧ (0x5B : Byte) ≠ tail1 ∧ (0xA4 : Byte) ≠ tail2 ∧
    (0x00 : Byte) ≠ frameChecksum 0x00 [0xAA, 0xBB, 0xCC, 0xDD] ∧
    decode small (frameWith 0xC5 0x5C 0x00 [0xAA, 0xBB, 0xCC, 0xDD] 0x00 0x5A 0xA4) = .invalid .checksumMismatch := by decide

/-- The command, the first and the last payload byte, and the checksum; and with no payload the checksum at byte 5. -/
theorem witness_OneCorruptedByteFailsTheChecksum :
    v3[2]? ≠ some 0x01 ∧ v3[5]? ≠ some 0x2A ∧ v3[8]? ≠ some 0xDC ∧ v3[5 + 4]? ≠ some 0x00 ∧
    ([] : List Byte).length ≤ small.maxPayload ∧ (encodeFrame 0x02 [])[5]? ≠ some 0x03 := by decide

theorem witness_TruncatedFrameIsRejected :
    ([] : List Byte).length ≤ small.maxPayload ∧ 7 < 8 + ([] : List Byte).length ∧ 0 < 8 + ([] : List Byte).length := by decide

/-- Dropped; stored below, at the last place, and after a wrap. -/
theorem witness_RxByteIsStoredOrDropped :
    (loaded v1 .idle).buf.wf = true ∧ (loaded v1 .idle).frameReady = true ∧
    (empty : State).buf.wf = true ∧ (empty : State).frameReady = false ∧
    (receiving (List.replicate 11 0x11)).buf.wf = true ∧ (receiving (List.replicate 11 0x11)).frameReady = false ∧
    (receiving (List.replicate 11 0x11)).tail < small.cap ∧
    (receiving (List.replicate 12 0x11)).buf.wf = true ∧ (receiving (List.replicate 12 0x11)).frameReady = false ∧
    small.cap ≤ (receiving (List.replicate 12 0x11)).tail := by decide

theorem witness_TickWithoutReceptionDoesNothing :
    (empty : State).receiving = false ∧ (loaded v1 .idle).receiving = false := by decide

theorem witness_TickCountsThenDeclaresTheFrame :
    (receiving [0xC5] 0).receiving = true ∧ (receiving [0xC5] 0).idleTicks < small.idleThreshold ∧
    (receiving [0xC5] 1).receiving = true ∧ (receiving [0xC5] 1).idleTicks < small.idleThreshold ∧
    (receiving [0xC5] 2).receiving = true ∧ (receiving [0xC5] 2).idleTicks = small.idleThreshold := by decide

theorem witness_QuietPeriodIsThresholdPlusOneTicks :
    (receiving [0xC5]).receiving = true ∧ (receiving [0xC5]).idleTicks = 0 ∧ (receiving [0xC5]).frameReady = false := by decide

/-- With 14 bytes in a buffer of 12, byte 13 is the last to fall on index 1 and byte 2 on index 2; with 1 byte index 1 is untouched. -/
theorem witness_OverflowLaysTheStreamInLaps :
    (empty : State).buf = [] ∧ (empty : State).tail = 0 ∧ (empty : State).frameReady = false ∧ (empty : State).config.cap = 12 ∧
    (1 < 12 ∧ 13 < 14 ∧ 13 % 12 = 1 ∧ ∀ k, k < 14 → 13 < k → k % 12 ≠ 1) ∧
    (2 < 12 ∧ 2 < 14 ∧ 2 % 12 = 2 ∧ ∀ k, k < 14 → 2 < k → k % 12 ≠ 2) ∧ (∀ j, j < 1 → j % 12 ≠ 1) := by decide

theorem witness_ClearIsHonouredInIdleOnly :
    (loaded v1 .idle).phase = .idle ∧ (loaded v1 .decoding).phase ≠ .idle ∧ (loaded v1 .ackPending).phase ≠ .idle := by decide

/-- frameReady rises by a tick; it falls by a Reset, by a Clear in IDLE and by SeqAck. -/
theorem witness_FrameReadyRisesByTickAndFallsByClear :
    (receiving [0xC5] 2).frameReady = false ∧ holds (step ((receiving [0xC5] 2).offer .tick)) (·.frameReady) = true ∧
    (loaded v1 .idle).frameReady = true ∧ (loaded v1 .ackPending).frameReady = true ∧
    holds (step ((loaded v1 .idle).offer .reset)) (fun t => !t.frameReady) = true ∧
    holds (step ((loaded v1 .idle).offer .clear)) (fun t => !t.frameReady) = true ∧
    holds (step ((loaded v1 .ackPending).offer .sequencer)) (fun t => !t.frameReady) = true := by decide

/-- A step that keeps the frame, and each of the three that clear it. -/
theorem witness_BufferIsFrozenWhileFrameReady :
    (loaded v1 .decoding).frameReady = true ∧ (loaded v1 .idle).frameReady = true ∧ (loaded v1 .ackPending).frameReady = true ∧
    holds (step ((loaded v1 .decoding).offer .clear)) (fun t => t.frameReady && t.buf == (loaded v1).buf) = true ∧
    holds (step ((loaded v1 .decoding).offer .reset)) (fun t => t.buf == []) = true ∧
    holds (step ((loaded v1 .idle).offer .clear)) (fun t => t.buf == []) = true ∧
    holds (step ((loaded v1 .ackPending).offer .sequencer)) (fun t => t.buf == []) = true := by decide

/-- Each clause: a frame waiting; nothing or something received; the threshold reached. -/
theorem witness_ByteBeforeTickInOneCycle :
    ((loaded v1 .idle).Safe ∧ (loaded v1 .idle).frameReady = true) ∧
    ((empty : State).Safe ∧ (empty : State).frameReady = false ∧ (empty : State).idleTicks < small.idleThreshold) ∧
    ((receiving [0xC5] 1).Safe ∧ (receiving [0xC5] 1).frameReady = false ∧ (receiving [0xC5] 1).idleTicks < small.idleThreshold) ∧
    ((receiving [0xC5] 2).Safe ∧ (receiving [0xC5] 2).frameReady = false ∧ (receiving [0xC5] 2).idleTicks = small.idleThreshold) :=
  ⟨⟨witness_safe_idle_ready, rfl⟩, ⟨witness_safe_empty, rfl, by decide⟩, ⟨witness_safe_receiving.2.1, rfl, by decide⟩,
    ⟨witness_safe_receiving.2.2.1, rfl, rfl⟩⟩

theorem witness_SeqStartWaitsForFrameReady :
    (loaded v1 .idle).phase = .idle ∧ (loaded v1 .idle).frameReady = true ∧
    (empty : State).phase = .idle ∧ (empty : State).frameReady = false := by decide

theorem witness_StepRunsTheDecodedInstruction :
    (loaded v3).phase = .decoding ∧
    decode small ((loaded v3).buf.readRange 0 small.cap) = .valid (.data [0xAA, 0xBB, 0xCC, 0xDD]) ∧
    (loaded v1 .ackPending).phase = .ackPending := by decide

/-- An invalid frame, a valid one that is not DATA, a valid DATA. -/
theorem witness_SeqExecuteLatchesAndMovesOn :
    (loaded v20).phase = .decoding ∧ (loaded v20).fetch = .invalid .checksumMismatch ∧
    (loaded v1).phase = .decoding ∧ (loaded v1).fetch = .valid (.end_ []) ∧
    (loaded v3).phase = .decoding ∧ (loaded v3).fetch = .valid (.data [0xAA, 0xBB, 0xCC, 0xDD]) := by decide

/-- Each result: a failed verification, a short answer by one, an exact answer. -/
theorem witness_ResultCodesTellTheOutcome :
    (loaded v20).phase = .decoding ∧ (loaded v20).fetch = .invalid .checksumMismatch ∧
    (loaded v3 .decoding [3]).phase = .decoding ∧ (loaded v3 .decoding [3]).fetch = .valid (.data [0xAA, 0xBB, 0xCC, 0xDD]) ∧
    (loaded v3 .decoding [3]).storeAnswer < [0xAA, 0xBB, 0xCC, 0xDD].length ∧
    (loaded v3 .decoding [4]).phase = .decoding ∧ ¬(loaded v3 .decoding [4]).storeAnswer < [0xAA, 0xBB, 0xCC, 0xDD].length := by
  decide

theorem witness_DataStoresThePayloadSlice :
    (loaded v3).phase = .decoding ∧ (loaded v3).fetch = .valid (.data [0xAA, 0xBB, 0xCC, 0xDD]) ∧
    (loaded [0xC5, 0x5C, 0, 0, 0, 0, 0x5A, 0xA5]).phase = .decoding ∧
    (loaded [0xC5, 0x5C, 0, 0, 0, 0, 0x5A, 0xA5]).fetch = .valid (.data []) := by decide

theorem witness_PhaseFollowsTheOneCycle :
    holds (step ((loaded v1 .idle).offer .sequencer)) (·.phase == .decoding) = true ∧
    holds (step ((loaded v1 .decoding).offer .sequencer)) (·.phase == .ackPending) = true ∧
    holds (step ((loaded v1 .ackPending).offer .sequencer)) (·.phase == .idle) = true ∧
    holds (step ((loaded v1 .decoding).offer .reset)) (·.phase == .idle) = true ∧
    (loaded v20 .idle).phase = .idle ∧ (loaded v20 .idle).frameReady = true ∧
    (loaded v20 .idle).fetch = .invalid .checksumMismatch := by decide

theorem witness_InputsDuringAServiceChangeNothing :
    (loaded v1 .decoding).Safe ∧ (loaded v1 .decoding).phase ≠ .idle ∧
    (∀ t ∈ [Turn.rxByte 0x11, .tick, .clear], t.isInput = true) ∧
    (loaded v1 .idle).Safe ∧ (loaded v1 .idle).frameReady = true ∧
    (∀ t ∈ [Turn.rxByte 0x11, .tick], t.isByteOrTick = true) :=
  ⟨witness_safe_busy.1, by decide, by decide, witness_safe_idle_ready, rfl, by decide⟩

theorem witness_InterruptedServiceEqualsFusedService :
    (loaded v1 .idle).Safe ∧ (loaded v1 .idle).phase = .idle ∧ (loaded v1 .idle).frameReady = true ∧
    (∀ t ∈ [Turn.rxByte 0x11, .tick], t.isByteOrTick = true) ∧ (∀ t ∈ [Turn.clear, .tick], t.isInput = true) ∧
    (∀ t ∈ [Turn.rxByte 0x00, .clear], t.isInput = true) :=
  ⟨witness_safe_idle_ready, rfl, rfl, by decide, by decide, by decide⟩

theorem witness_ServiceSendsExactlyOneAck :
    (loaded v3 .idle).phase = .idle ∧ (loaded v3 .idle).frameReady = true ∧
    (loaded v20 .idle).phase = .idle ∧ (loaded v20 .idle).frameReady = true := by decide

theorem witness_RequestsComeOnlyFromTheSequencer :
    holds (step ((loaded v3 .decoding [4]).offer .sequencer)) (·.outputs == [.storeWrite 0x1005 4 [0xAA, 0xBB, 0xCC, 0xDD] 4]) = true ∧
    holds (step ((loaded v1 .ackPending).offer .sequencer)) (·.outputs.length == 1) = true ∧
    holds (step (empty.offer .tick)) (·.outputs == []) = true := by decide

/-- A short answer by one, and the exact answer. -/
theorem witness_DataWritesAndCounts :
    (loaded x3 .decoding [1]).storeAnswer < [0x44, 0x55].length ∧ [0x44, 0x55].length ≤ (loaded x3 .decoding [2]).storeAnswer := by
  decide

theorem witness_SessionChangesOnlyByItsCommands :
    holds (step ((loaded v2).offer .sequencer)) (fun t => t.bytesStored == 0) = true ∧
    holds (step ((loaded v3 .decoding [4]).offer .sequencer)) (fun t => t.bytesStored == 9) = true ∧
    holds (step ((loaded v1).offer .reset)) (fun t => t.baseOffset == 0) = true ∧
    holds (step ((loaded v1).offer .sequencer)) (fun t => t.baseOffset == 0x1000) = true := by decide

/-- Two DATA frames, the first answered with more than was asked (42_command_dispatch.md R101), the second exactly. -/
theorem witness_DataAfterBeginIsContiguous :
    (loaded v2 .decoding [3, 2, 7]).storeAnswers = [3, 2] ++ [7] ∧ [3, 2].length = [[0x11, 0x22], [0x44, 0x55]].length ∧
    (∀ w ∈ [3, 2], w < 2 ^ small.writtenBits) ∧
    (∀ k, k < 2 → ([[0x11, 0x22], [0x44, 0x55]].getD k ([] : List Byte)).length ≤ [3, 2].getD k 0) := by decide

theorem witness_EveryStepKeepsSafe :
    (receiving [0xC5] 2).Safe ∧ holds (step ((receiving [0xC5] 2).offer .tick)) (fun _ => true) = true :=
  ⟨witness_safe_receiving.2.2.1, by decide⟩

theorem witness_EveryExecutionStaysSafe :
    holds (runTurns [.rxByte 0xC5, .tick, .tick, .tick, .sequencer, .sequencer, .sequencer] { State.reset with config := small })
      (fun t => t.outputs.length == 1) = true := by decide

theorem witness_ParametersAreNeverWritten : holds (step ((loaded v1).offer .tick)) (fun _ => true) = true := by decide

/-- A frame under service; IDLE with nothing, with a partial frame, and with a complete one. -/
theorem witness_NothingIsFatal :
    (loaded v20 .decoding).phase = .decoding ∧
    ((empty : State).Safe ∧ (empty : State).phase = .idle) ∧ ((receiving [0xC5] 2).Safe ∧ (receiving [0xC5] 2).phase = .idle) ∧
    ((loaded v1 .idle).Safe ∧ (loaded v1 .idle).phase = .idle) :=
  ⟨rfl, ⟨witness_safe_empty, rfl⟩, ⟨witness_safe_receiving.2.2.1, rfl⟩, ⟨witness_safe_idle_ready, rfl⟩⟩

theorem witness_DeliveredFrameIsExecutedAndAcknowledged :
    (empty : State).Safe ∧ (empty : State).AtRest ∧ (empty : State).receiving = false ∧ (Instr.end_ []).isReceived = true ∧
    (Instr.end_ []).wellFormed small = true ∧ (Instr.data [1, 2, 3, 4]).wellFormed small = true :=
  ⟨witness_safe_empty, ⟨rfl, rfl⟩, rfl, rfl, by decide, by decide⟩

end Sys2Proof.Tests
end

section
/-! PROOF. A byte and a tick of one clock cycle, in both orders (00_scope.md R7, 70_reset_and_hazards.md R166): O19. -/

namespace Sys2Proof.Machine

variable {s : State}

/-! ### The two orders as compositions of the receiver's operations -/

theorem runTurns_rxByte_tick (b : Byte) (s : State) : runTurns [.rxByte b, .tick] s = .next (s.rxByte b).tick := rfl

theorem runTurns_tick_rxByte (b : Byte) (s : State) : runTurns [.tick, .rxByte b] s = .next (s.tick.rxByte b) := rfl

/-! ### What a safe state says of the receiver -/

theorem State.Safe.not_receiving (hs : s.Safe) (h : s.frameReady = true) : s.receiving = false :=
  Bool.eq_false_iff.mpr fun hr => hs.not_both ⟨hr, h⟩

/-- A counter above zero with no frame waiting belongs to a reception (10_state.md R29 f). -/
theorem State.Safe.receiving_of_idleTicks_pos (hs : s.Safe) (h : s.frameReady = false) (hi : 0 < s.idleTicks) :
    s.receiving = true :=
  Bool.of_not_eq_false fun hr => hi.ne' (hs.empty h hr).2.1

/-! ### The tick below the threshold, and on either side of a byte -/

theorem State.tick_frameReady_of_lt (hi : s.idleTicks < s.config.idleThreshold) : s.tick.frameReady = s.frameReady := by
  cases hr : s.receiving with
  | false => rw [State.tick_inactive hr]
  | true => rw [State.tick_counts hr hi]

/-- The write cursor reads the tail and the configuration, which a tick leaves alone. -/
@[simp] theorem State.tick_writeCursor (s : State) : s.tick.writeCursor = s.writeCursor := by simp [State.writeCursor]

theorem State.rxByte_tick_dropped (b : Byte) (hs : s.Safe) (h : s.frameReady = true) : (s.rxByte b).tick = s := by
  rw [State.rxByte_dropped b h, State.tick_inactive (hs.not_receiving h)]

theorem State.tick_rxByte_dropped (b : Byte) (hs : s.Safe) (h : s.frameReady = true) : s.tick.rxByte b = s := by
  rw [State.tick_inactive (hs.not_receiving h), State.rxByte_dropped b h]

/-- The byte sets the counter to zero, and the tick counts from there: one tick is below every threshold (00_scope.md R3). -/
theorem State.rxByte_tick_accepted (b : Byte) (h : s.frameReady = false) :
    (s.rxByte b).tick = { s with
      buf := s.buf.write s.writeCursor b, tail := s.writeCursor + 1, receiving := true, idleTicks := 1 } := by
  rw [State.rxByte_accepted b h]
  exact State.tick_counts rfl s.config.one_le_idleThreshold

theorem State.tick_rxByte_accepted (b : Byte) (h : s.frameReady = false) (hi : s.idleTicks < s.config.idleThreshold) :
    s.tick.rxByte b = { s.tick with
      buf := s.buf.write s.writeCursor b, tail := s.writeCursor + 1, receiving := true, idleTicks := 0 } := by
  rw [State.rxByte_accepted b ((State.tick_frameReady_of_lt hi).trans h), State.tick_buf, State.tick_writeCursor]

/-- At the threshold the tick completes the frame, and the byte behind it is dropped (the spec's decisions D3 and D5). -/
theorem State.tick_rxByte_lost (b : Byte) (hr : s.receiving = true) (hi : s.idleTicks = s.config.idleThreshold) :
    s.tick.rxByte b =
      { s with idleTicks := s.config.idleThreshold + 1, frameReady := true, receiving := false } := by
  rw [State.tick_expires hr hi]
  exact State.rxByte_dropped b rfl

end Sys2Proof.Machine

namespace Sys2Proof

open Sys2Proof.Machine

/-- Settles O19: each clause is the composition of the two receiver operations, in the case its hypotheses select. -/
theorem byteBeforeTickInOneCycle : Obligations.ByteBeforeTickInOneCycle := by
  intro s b hs
  simp only [runTurns_rxByte_tick, runTurns_tick_rxByte]
  refine ⟨rfl, fun h => ?waiting, fun h => ?byteFirst, fun h hi => ?tickBelow, fun h hi => ?tickAt⟩
  case waiting => exact ⟨congrArg _ (State.rxByte_tick_dropped b hs h), congrArg _ (State.tick_rxByte_dropped b hs h)⟩
  case byteFirst => exact ⟨_, congrArg _ (State.rxByte_tick_accepted b h), rfl, rfl, h, rfl⟩
  case tickBelow =>
    exact ⟨_, congrArg _ (State.tick_rxByte_accepted b h hi), rfl, rfl, (State.tick_frameReady_of_lt hi).trans h, rfl⟩
  case tickAt =>
    have hr : s.receiving = true := hs.receiving_of_idleTicks_pos h (hi ▸ s.config.one_le_idleThreshold)
    exact ⟨_, congrArg _ (State.tick_rxByte_lost b hr hi), rfl, rfl, rfl⟩

end Sys2Proof
end

section
/-! PROOF. Who writes and who reads `frameReady` (10_state.md R17): O17. -/

namespace Sys2Proof.Machine

variable {s s' : State}

/-! ### The decoder answers only received commands -/

theorem decode_valid_eq_ofCmd {c : Config} {bs : List Byte} {i : Instr} (h : decode c bs = .valid i) :
    ∃ cmd p, i = ofCmd cmd p := by
  unfold decode at h
  split at h
  case h_2 => cases h
  case h_1 _ _ cmd _ _ body =>
    split at h
    · cases h
    · split at h
      · cases h
      · split at h
        · split at h
          · cases h
          · split at h
            · cases h
            · exact ⟨_, _, (Decoded.valid.inj h).symm⟩
        · cases h

theorem isReceived_of_fetch {i : Instr} (h : s.fetch = .valid i) : i.isReceived = true := by
  obtain ⟨cmd, p, rfl⟩ := decode_valid_eq_ofCmd h
  exact isReceived_ofCmd cmd p

/-! ### What each operation does to `frameReady` -/

/-- Of the instructions only the emitted ACK touches the receiver (44_sequencer.md R122, R123). -/
theorem exec_received_frameReady {i : Instr} (hi : i.isReceived = true) (h : exec i s = .next s') :
    s'.frameReady = s.frameReady := by
  obtain ⟨p, -, rfl⟩ | ⟨p, -, rfl⟩ | ⟨-, rfl⟩ | ⟨c, r, rfl, -⟩ := exec_cases h
  · rfl
  · rfl
  · rfl
  · cases hi

/-- A tick either leaves `frameReady` alone or completes the frame (40_receive_buffer_and_timer.md R75, R76). -/
theorem State.tick_frameReady_cases (s : State) :
    s.tick.frameReady = s.frameReady ∨
    (s.tick.frameReady = true ∧ s.receiving = true ∧ s.tick.receiving = false) := by
  cases hr : s.receiving with
  | false => exact .inl (congrArg State.frameReady (State.tick_inactive hr))
  | true =>
    cases he : idleExpired s.config (nextIdleTicks s.config s.idleTicks) with
    | false => exact .inl (by simp [State.tick, hr, he])
    | true => exact .inr (by simp [State.tick, hr, he])

theorem State.receiverCleared_clearReceiver (s : State) : s.clearReceiver.ReceiverCleared := ⟨fun _ => rfl, rfl, rfl, rfl, rfl⟩

theorem State.receiverCleared_resetBlock (s : State) : s.resetBlock.ReceiverCleared := ⟨fun _ => rfl, rfl, rfl, rfl, rfl⟩

theorem State.receiverCleared_endService (s : State) : s.endService.ReceiverCleared := ⟨fun _ => rfl, rfl, rfl, rfl, rfl⟩

/-! ### What a step does to `frameReady` -/

/-- The turns that clear the receiver: a Reset (70_reset_and_hazards.md R153), a Clear in IDLE (40_receive_buffer_and_timer.md R78)
and SeqAck (44_sequencer.md R123). -/
def State.ClearingTurn (s : State) : Prop :=
  s.nextTurn = .reset ∨ (s.nextTurn = .clear ∧ s.phase = .idle) ∨ (s.nextTurn = .sequencer ∧ s.phase = .ackPending)

/-- Every writer of `frameReady` (10_state.md R17). The cases stand in the order of `step_cases`: Reset, Clear, RxByte, Tick, SeqStart,
SeqExecute on a valid and on an invalid frame, SeqAck. -/
theorem step_frameReady_cases (h : step s = .next s') :
    s'.frameReady = s.frameReady ∨
    (s.nextTurn = .tick ∧ s'.frameReady = true ∧ s.receiving = true ∧ s'.receiving = false) ∨
    (s.ClearingTurn ∧ s'.ReceiverCleared) := by
  obtain ⟨ht, rfl⟩ | ⟨ht, rfl⟩ | ⟨b, ht, rfl⟩ | ⟨ht, rfl⟩ | ⟨ht, hp, rfl⟩ | ⟨ht, hp, i, hf, he⟩ | ⟨ht, hp, e, hf, -, rfl⟩ |
    ⟨ht, hp, rfl⟩ := step_cases h
  · exact .inr (.inr ⟨.inl ht, State.receiverCleared_resetBlock _⟩)
  · by_cases hp : s.phase = .idle
    · rw [State.clear_idle (s := s.popTurn) hp]
      exact .inr (.inr ⟨.inr (.inl ⟨ht, hp⟩), State.receiverCleared_clearReceiver _⟩)
    · rw [State.clear_busy (s := s.popTurn) hp]
      exact .inl rfl
  · exact .inl (State.rxByte_frameReady _ b)
  · exact (State.tick_frameReady_cases s.popTurn).imp_right fun hc => .inl ⟨ht, hc⟩
  · exact .inl (State.seqStart_frameReady _)
  · exact .inl (exec_received_frameReady (s := s.popTurn) (isReceived_of_fetch hf) he)
  · exact .inl rfl
  · exact .inr (.inr ⟨.inr (.inr ⟨ht, hp⟩), State.receiverCleared_endService _⟩)

/-! ### The reader of `frameReady` -/

theorem State.seqStart_phase_decoding_iff (hp : s.phase = .idle) : s.seqStart.phase = .decoding ↔ s.frameReady = true := by
  cases h : s.frameReady with
  | false => simp [State.seqStart_waits h, hp]
  | true => simp [State.seqStart_ready h]

theorem step_offer_sequencer_idle (hp : s.phase = .idle) : step (s.offer .sequencer) = .next s.seqStart := by
  rw [step_offer_sequencer, sequencerStep, hp]

end Sys2Proof.Machine

namespace Sys2Proof

open Sys2Proof.Machine

/-- Settles O17: the first two clauses read off the writers of `frameReady`, the others are its readers and its reset value. -/
theorem frameReadyRisesByTickAndFallsByClear : Obligations.FrameReadyRisesByTickAndFallsByClear := by
  refine ⟨fun s s' h h0 h1 => ?rises, fun s s' h h1 h0 => ?falls, fun s b h1 => ?dropped, fun s hp => ?starts, rfl⟩
  case rises =>
    obtain heq | ⟨ht, -, hr, hr'⟩ | ⟨-, hc⟩ := step_frameReady_cases h
    · simp [heq, h0] at h1
    · exact ⟨ht, hr, hr'⟩
    · simp [hc.frameReady] at h1
  case falls =>
    obtain heq | ⟨-, h1', -⟩ | ⟨ht, hc⟩ := step_frameReady_cases h
    · simp [heq, h1] at h0
    · simp [h1'] at h0
    · exact ⟨hc, ht⟩
  case dropped => exact congrArg _ (State.rxByte_dropped b h1)
  case starts => exact ⟨_, step_offer_sequencer_idle hp, State.seqStart_phase_decoding_iff hp⟩

end Sys2Proof
end

section
/-! PROOF. The buffer cannot change under the decoder (20_memory.md R47): O18. -/

namespace Sys2Proof.Machine

variable {s s' : State}

/-! ### What a step does to the buffer -/

/-- Of the instructions only the emitted ACK touches the buffer (44_sequencer.md R122, R123). -/
theorem exec_received_buf {i : Instr} (hi : i.isReceived = true) (h : exec i s = .next s') : s'.buf = s.buf := by
  obtain ⟨p, -, rfl⟩ | ⟨p, -, rfl⟩ | ⟨-, rfl⟩ | ⟨c, r, rfl, -⟩ := exec_cases h
  · rfl
  · rfl
  · rfl
  · cases hi

/-- Every writer of the buffer: an accepted byte (40_receive_buffer_and_timer.md R71) and the turns that clear the receiver. The cases
stand in the order of `step_cases`. -/
theorem step_buf_cases (h : step s = .next s') :
    s'.buf = s.buf ∨
    (∃ b, s.nextTurn = .rxByte b ∧ s.frameReady = false ∧ s'.buf = s.buf.write s.writeCursor b) ∨
    (s.ClearingTurn ∧ s'.ReceiverCleared) := by
  obtain ⟨ht, rfl⟩ | ⟨ht, rfl⟩ | ⟨b, ht, rfl⟩ | ⟨ht, rfl⟩ | ⟨ht, hp, rfl⟩ | ⟨ht, hp, i, hf, he⟩ | ⟨ht, hp, e, hf, -, rfl⟩ |
    ⟨ht, hp, rfl⟩ := step_cases h
  · exact .inr (.inr ⟨.inl ht, State.receiverCleared_resetBlock _⟩)
  · by_cases hp : s.phase = .idle
    · rw [State.clear_idle (s := s.popTurn) hp]
      exact .inr (.inr ⟨.inr (.inl ⟨ht, hp⟩), State.receiverCleared_clearReceiver _⟩)
    · rw [State.clear_busy (s := s.popTurn) hp]
      exact .inl rfl
  · cases hr : s.frameReady with
    | false =>
      rw [State.rxByte_accepted (s := s.popTurn) b hr]
      exact .inr (.inl ⟨b, ht, rfl, rfl⟩)
    | true =>
      rw [State.rxByte_dropped (s := s.popTurn) b hr]
      exact .inl rfl
  · exact .inl (State.tick_buf s.popTurn)
  · exact .inl (State.seqStart_buf s.popTurn)
  · exact .inl (exec_received_buf (s := s.popTurn) (isReceived_of_fetch hf) he)
  · exact .inl rfl
  · exact .inr (.inr ⟨.inr (.inr ⟨ht, hp⟩), State.receiverCleared_endService _⟩)

/-- With a frame waiting no byte is accepted, so only a clearing turn writes the buffer. -/
theorem step_keeps_buf_or_clears (hr : s.frameReady = true) (h : step s = .next s') :
    s'.buf = s.buf ∨ (s.ClearingTurn ∧ s'.ReceiverCleared) := by
  obtain hb | ⟨b, -, hr', -⟩ | hc := step_buf_cases h
  · exact .inl hb
  · simp [hr] at hr'
  · exact .inr hc

/-- A waiting frame goes away by a clearing turn only. -/
theorem step_keeps_frameReady_or_clears (hr : s.frameReady = true) (h : step s = .next s') :
    s'.frameReady = true ∨ (s.ClearingTurn ∧ s'.ReceiverCleared) := by
  obtain heq | ⟨-, hr', -⟩ | hc := step_frameReady_cases h
  · exact .inl (heq.trans hr)
  · exact .inl hr'
  · exact .inr hc

end Sys2Proof.Machine

namespace Sys2Proof

open Sys2Proof.Machine

/-- Settles O18: a step that is not a clearing turn keeps `frameReady` and the buffer, each by the list of its writers. -/
theorem bufferIsFrozenWhileFrameReady : Obligations.BufferIsFrozenWhileFrameReady := by
  refine ⟨fun s s' hr h => ?kept, fun s b hr => ?dropped⟩
  case kept =>
    obtain hb | ⟨ht, hc⟩ := step_keeps_buf_or_clears hr h
    · obtain hr' | ⟨ht, hc⟩ := step_keeps_frameReady_or_clears hr h
      · exact .inl ⟨hr', hb⟩
      · exact .inr ⟨hc, ht⟩
    · exact .inr ⟨hc, ht⟩
  case dropped => exact congrArg _ (State.rxByte_dropped b hr)

end Sys2Proof
end

section
/-! PROOF. Decoding an encoded instruction, and the row of every command byte (30_encoding.md R54, R57, R95 a): O1, O3. -/

namespace Sys2Proof

open Sys2Proof.Laws

/-! ### The decoder, said once -/

/-- `Decode` accepts exactly the bytes with the two head bytes, a length the policy admits, the checksum over the payload of that
length behind the payload, and the trailer behind the checksum (41_frame_decoder.md R84 to R89). -/
theorem decode_eq_valid_iff {c : Config} {h1 h2 cmd lenHi lenLo : Byte} {body : List Byte} {i : Instr} :
    decode c (h1 :: h2 :: cmd :: lenHi :: lenLo :: body) = .valid i ↔
      h1 = head1 ∧ h2 = head2 ∧ ∃ len rest, boundLength c (be16 lenHi lenLo) = some len ∧
        body.drop len = xorFold (cmd :: lenHi :: lenLo :: body.take len) :: tail1 :: tail2 :: rest ∧
        i = ofCmd cmd (body.take len) := by
  constructor
  · intro h
    simp only [decode] at h
    split at h
    · cases h
    next hhead =>
      split at h
      · cases h
      next len hlen =>
        split at h
        next bcc t1 t2 rest hdrop =>
          split at h
          · cases h
          next hsum =>
            split at h
            · cases h
            next htail =>
              simp only [ne_eq, not_or, not_not] at hhead hsum htail
              obtain ⟨rfl, rfl⟩ := htail
              exact ⟨hhead.1, hhead.2, len, rest, hlen, hsum ▸ hdrop, (Decoded.valid.inj h).symm⟩
        · cases h
  · rintro ⟨rfl, rfl, len, rest, hlen, hdrop, rfl⟩
    simp [decode, hlen, hdrop]

/-- The decoder reads a frame whose payload fits, whatever bytes follow it (30_encoding.md R57, 41_frame_decoder.md R95 a, R97). -/
theorem decode_encodeFrame_append {c : Config} {p : List Byte} (cmd : Byte) (rest : List Byte) (hp : p.length ≤ c.maxPayload) :
    decode c (encodeFrame cmd p ++ rest) = .valid (ofCmd cmd p) := by
  have hlen := be16_length p.length (hp.trans c.maxPayload_le)
  simp only [encodeFrame, List.cons_append, List.nil_append, List.append_assoc]
  refine decode_eq_valid_iff.mpr ⟨rfl, rfl, p.length, rest, ?_, ?_, ?_⟩
  · rw [hlen, boundLength_of_le hp]
  · rw [List.drop_left, List.take_left]
  · rw [List.take_left]

/-! ### Received instructions -/

/-- The command byte and the payload of a received instruction select that instruction (30_encoding.md R54), row by row. -/
theorem ofCmd_cmd_payload {i : Instr} (hi : i.isReceived = true) : ofCmd i.cmd i.payload = i := by
  cases i with
  | data p => exact SelectorRoundTrip.data p hi
  | begin p => exact SelectorRoundTrip.begin p hi
  | end_ p => exact SelectorRoundTrip.end_ p hi
  | rsvd03 p => exact SelectorRoundTrip.rsvd03 p hi
  | rsvd04_07 l p => exact SelectorRoundTrip.rsvd04_07 l p hi
  | rsvd08_0F l p => exact SelectorRoundTrip.rsvd08_0F l p hi
  | rsvd10_1F l p => exact SelectorRoundTrip.rsvd10_1F l p hi
  | rsvd20_3F l p => exact SelectorRoundTrip.rsvd20_3F l p hi
  | rsvd40_7F l p => exact SelectorRoundTrip.rsvd40_7F l p hi
  | rsvd80_BF l p => exact SelectorRoundTrip.rsvd80_BF l p hi
  | rsvdC0_DF l p => exact SelectorRoundTrip.rsvdC0_DF l p hi
  | rsvdE0_EF l p => exact SelectorRoundTrip.rsvdE0_EF l p hi
  | rsvdF0_F7 l p => exact SelectorRoundTrip.rsvdF0_F7 l p hi
  | rsvdF8_FB l p => exact SelectorRoundTrip.rsvdF8_FB l p hi
  | rsvdFC_FD l p => exact SelectorRoundTrip.rsvdFC_FD l p hi
  | rsvdFE p => exact SelectorRoundTrip.rsvdFE p hi
  | ackRx p => exact SelectorRoundTrip.ackRx p hi
  | ackTx c r => exact SelectorRoundTrip.ackTx c r hi

theorem wellFormed_of_isReceived {i : Instr} (c : Config) (hi : i.isReceived = true) :
    i.wellFormed c = payloadFits c i.payload := by
  cases i with
  | ackTx => cases hi
  | _ => rfl

theorem payload_length_le {c : Config} {i : Instr} (hi : i.isReceived = true) (hw : i.wellFormed c = true) :
    i.payload.length ≤ c.maxPayload := by
  simpa [wellFormed_of_isReceived c hi, payloadFits] using hw

theorem decode_encode_append {c : Config} {i : Instr} (rest : List Byte) (hi : i.isReceived = true)
    (hw : i.wellFormed c = true) : decode c (encode i ++ rest) = .valid i := by
  rw [encode, decode_encodeFrame_append i.cmd rest (payload_length_le hi hw), ofCmd_cmd_payload hi]

/-! ### The emitted ACK -/

theorem exists_ackTx_of_not_isReceived {i : Instr} (hi : i.isReceived = false) : ∃ cmd res, i = .ackTx cmd res := by
  cases i with
  | ackTx cmd res => exact ⟨cmd, res, rfl⟩
  | _ => cases hi

theorem decodeTx_ackFrame (cmd res : Byte) : decodeTx (ackFrame cmd res) = .valid (.ackTx cmd res) := by
  simp [decodeTx, ackFrame, be16, BitVec.xor_assoc]

/-- Settles O1: a received instruction by the frame round trip and the selector round trip, the emitted ACK by its own reader. -/
theorem decodeOfEncodeGivesTheInstructionBack : Obligations.DecodeOfEncodeGivesTheInstructionBack := by
  refine fun c i rest hw => ⟨fun hi => decode_encode_append rest hi hw, fun hi => ?_⟩
  obtain ⟨cmd, res, rfl⟩ := exists_ackTx_of_not_isReceived hi
  rw [← ackFrame_eq_encode, decodeTx_ackFrame]

/-! ### The block of command bytes a row occupies -/

/-- The first and the last command byte of an instruction's row (30_encoding.md R54). -/
def Instr.block : Instr → Nat × Nat
  | .data _ => (0x00, 0x00)
  | .begin _ => (0x01, 0x01)
  | .end_ _ => (0x02, 0x02)
  | .rsvd03 _ => (0x03, 0x03)
  | .rsvd04_07 _ _ => (0x04, 0x07)
  | .rsvd08_0F _ _ => (0x08, 0x0F)
  | .rsvd10_1F _ _ => (0x10, 0x1F)
  | .rsvd20_3F _ _ => (0x20, 0x3F)
  | .rsvd40_7F _ _ => (0x40, 0x7F)
  | .rsvd80_BF _ _ => (0x80, 0xBF)
  | .rsvdC0_DF _ _ => (0xC0, 0xDF)
  | .rsvdE0_EF _ _ => (0xE0, 0xEF)
  | .rsvdF0_F7 _ _ => (0xF0, 0xF7)
  | .rsvdF8_FB _ _ => (0xF8, 0xFB)
  | .rsvdFC_FD _ _ => (0xFC, 0xFD)
  | .rsvdFE _ => (0xFE, 0xFE)
  | .ackRx _ => (0xFF, 0xFF)
  | .ackTx _ _ => (0xFF, 0xFF)

/-- Fixed high bits before free low bits: the words from all low bits zero to all low bits one. -/
theorem toNat_append_mem_block {m w first last : Nat} {high : BitVec m} (low : BitVec w) (hfirst : high.toNat * 2 ^ w = first)
    (hlast : first + (2 ^ w - 1) = last) : first ≤ (high ++ low).toNat ∧ (high ++ low).toNat ≤ last := by
  have hlow := low.isLt
  rw [BitVec.toNat_append, ← Nat.shiftLeft_add_eq_or_of_lt hlow, Nat.shiftLeft_eq]
  omega

/-- A command byte lies in its row's block. -/
theorem Instr.cmd_mem_block (i : Instr) : i.block.1 ≤ i.cmd.toNat ∧ i.cmd.toNat ≤ i.block.2 := by
  cases i with
  | data | begin | end_ | rsvd03 | rsvdFE | ackRx | ackTx => exact ⟨le_rfl, le_rfl⟩
  | _ low => exact toNat_append_mem_block low rfl rfl

/-- Settles O3: the selected instruction has the byte for its command and so names the row whose block holds the byte. -/
theorem everyCommandByteSelectsItsRow : Obligations.EveryCommandByteSelectsItsRow := by
  refine ⟨fun p => SelectorRoundTrip.data p rfl, fun p => SelectorRoundTrip.begin p rfl, fun p => SelectorRoundTrip.end_ p rfl,
    fun p => SelectorRoundTrip.ackRx p rfl, fun c p hlo hhi => ⟨cmd_ofCmd c p, payload_ofCmd c p, ?_⟩⟩
  have hc := cmd_ofCmd c p
  have hp := payload_ofCmd c p
  have hi := isReceived_ofCmd c p
  have hb := (ofCmd c p).cmd_mem_block
  generalize ofCmd c p = i at *
  subst hc hp
  cases i with
  | data | begin | end_ => exact absurd (hlo.trans hb.2) (by simp [Instr.block])
  | ackRx => exact absurd (hb.1.trans hhi) (by simp [Instr.block])
  | ackTx => cases hi
  | rsvd03 | rsvdFE => simp [Instr.cmd, Instr.payload]
  | _ => simpa [Instr.block, Instr.payload] using hb

end Sys2Proof
end

section
/-! PROOF. What a DATA frame stores (30_encoding.md R61): O24. -/

namespace Sys2Proof

/-- The length decoding goes on with never exceeds MAX_PAYLOAD, and below it is the declared one (41_frame_decoder.md R87). -/
theorem boundLength_eq_min {c : Config} {n len : Nat} (h : boundLength c n = some len) : len = min n c.maxPayload := by
  by_cases hn : n ≤ c.maxPayload
  · rw [boundLength_of_le hn] at h
    rw [← Option.some.inj h, Nat.min_eq_left hn]
  · rw [boundLength, if_neg hn] at h
    split at h
    · cases h
    · rw [← Option.some.inj h, Nat.min_eq_right (by omega)]

end Sys2Proof

namespace Sys2Proof.Machine

variable {s : State}

/-! ### The payload as a range of the buffer -/

theorem Memory.take_readRange (m : Memory) (i : Nat) {k n : Nat} (h : k ≤ n) : (m.readRange i n).take k = m.readRange i k := by
  obtain ⟨d, rfl⟩ := Nat.exists_eq_add_of_le h
  rw [Memory.readRange_add, List.take_left' (Memory.length_readRange m k i)]

/-- A valid frame's instruction has `buf[2]` for its command and `buf[5 .. 5+LEN)` for its payload, `LEN` bounded by MAX_PAYLOAD
(30_encoding.md R51, 41_frame_decoder.md R87). -/
theorem State.fetch_valid_eq_ofCmd {i : Instr} (h : s.fetch = .valid i) :
    i = ofCmd (s.buf.read 2) (s.buf.readRange 5 (min (be16 (s.buf.read 3) (s.buf.read 4)) s.config.maxPayload)) := by
  rw [State.fetch, State.bufBytes_eq] at h
  obtain ⟨-, -, len, -, hlen, -, rfl⟩ := decode_eq_valid_iff.mp h
  obtain rfl := boundLength_eq_min hlen
  rw [Memory.take_readRange _ _ (by omega)]

/-- In DECODING the sequencer's turn executes a valid frame (44_sequencer.md R122). -/
theorem step_offer_sequencer_valid {i : Instr} (hp : s.phase = .decoding) (hf : s.fetch = .valid i) :
    step (s.offer .sequencer) = exec i s := by
  simp only [step_offer_sequencer, sequencerStep, hp, hf]

end Sys2Proof.Machine

namespace Sys2Proof

open Sys2Proof.Machine

/-- Settles O24: the decoded payload is a range of the buffer, and executing DATA requests exactly it. -/
theorem dataStoresThePayloadSlice : Obligations.DataStoresThePayloadSlice := by
  intro s p hp hf
  have hpay : p = s.buf.readRange 5 (min (be16 (s.buf.read 3) (s.buf.read 4)) s.config.maxPayload) :=
    (congrArg Instr.payload (State.fetch_valid_eq_ofCmd hf)).trans (payload_ofCmd _ _)
  have hlen : p.length = min (be16 (s.buf.read 3) (s.buf.read 4)) s.config.maxPayload := by
    rw [hpay, Memory.length_readRange]
  refine ⟨?_, hlen, _, (step_offer_sequencer_valid hp hf).trans (exec_data p s), rfl⟩
  rw [← Memory.readRange_eq_map, hlen]
  exact hpay

end Sys2Proof
end

section
/-! PROOF. The end of a service: the ACK is sent and the receiver reopened (44_sequencer.md R123): O35. -/

namespace Sys2Proof

open Sys2Proof.Machine

/-- The ten bytes of the emitted ACK, the checksum's constant part folded (43_ack_encoder.md R114, R115). -/
theorem ackFrame_eq_bytes (c r : Byte) :
    ackFrame c r = [0xC5, 0x5C, 0xFF, 0x00, 0x02, c, r, 0xFD ^^^ c ^^^ r, 0x5A, 0xA5] := rfl

/-- Settles O35: one TxSend of the ACK frame, and the end of the service. -/
theorem seqAckSendsAndReopens : Obligations.SeqAckSendsAndReopens := by
  intro c r s
  simp only [← ackFrame_eq_bytes]
  exact ⟨_, exec_ackTx c r s, rfl, ackFrame_eq_encode c r, State.receiverCleared_endService _, rfl, rfl, rfl, ⟨rfl, rfl⟩,
    rfl, rfl, ⟨rfl, rfl⟩⟩

end Sys2Proof
end

section
/-! PROOF. One byte received, and one tick while nothing is received (40_receive_buffer_and_timer.md R71, R72, R73, R75): O11, O12. -/

namespace Sys2Proof

open Sys2Proof.Machine

/-- Settles O11: while a frame waits the byte is dropped; otherwise the buffer after it is a canonical memory written once, and the
record update touches no field outside the receiver. -/
theorem rxByteIsStoredOrDropped : Obligations.RxByteIsStoredOrDropped := by
  intro s b hwf
  rw [step_offer_rxByte]
  refine ⟨fun hready => ?dropped, fun hready => ?stored⟩
  case dropped => rw [State.rxByte_dropped b hready]
  case stored =>
    rw [State.rxByte_accepted b hready]
    have hread := Memory.read_write hwf s.writeCursor b
    exact ⟨_, rfl, hread, rfl, rfl, rfl, hready, ⟨rfl, rfl, rfl⟩, ⟨rfl, rfl⟩, ⟨rfl, rfl, rfl⟩, ⟨rfl, rfl⟩⟩

/-- Settles O12: the step of a tick is the receiver's tick, which is inactive while nothing is being received. -/
theorem tickWithoutReceptionDoesNothing : Obligations.TickWithoutReceptionDoesNothing := by
  intro s hidle
  rw [step_offer_tick, State.tick_inactive hidle]

end Sys2Proof
end

section
/-! PROOF. The order of the decoder's checks, over frame bytes and over buffer indices (41_frame_decoder.md R84, R93): O6, O8. -/

namespace Sys2Proof

/-- The three checks that are left once the length is admitted and the bytes behind the payload are there, in the order of
41_frame_decoder.md R84. -/
theorem decode_eq_checks {c : Config} {h1 h2 cmd lenHi lenLo bcc t1 t2 : Byte} {body rest : List Byte} {len : Nat}
    (hlen : boundLength c (be16 lenHi lenLo) = some len) (hdrop : body.drop len = bcc :: t1 :: t2 :: rest) :
    decode c (h1 :: h2 :: cmd :: lenHi :: lenLo :: body) =
      if h1 ≠ head1 ∨ h2 ≠ head2 then .invalid .headMismatch
      else if xorFold (cmd :: lenHi :: lenLo :: body.take len) ≠ bcc then .invalid .checksumMismatch
      else if t1 ≠ tail1 ∨ t2 ≠ tail2 then .invalid .trailerMismatch
      else .valid (ofCmd cmd (body.take len)) := by
  simp only [decode, hlen, hdrop]

/-! ### A frame with any sentinels and any checksum byte -/

theorem frameWith_eq_encodeFrame (cmd : Byte) (p : List Byte) :
    frameWith head1 head2 cmd p (frameChecksum cmd p) tail1 tail2 = encodeFrame cmd p := rfl

/-- `decode_eq_checks` for a frame given by its fields, whatever bytes follow it. -/
theorem decode_frameWith_append {c : Config} {p : List Byte} (h1 h2 cmd bcc t1 t2 : Byte) (rest : List Byte)
    (hp : p.length ≤ c.maxPayload) :
    decode c (frameWith h1 h2 cmd p bcc t1 t2 ++ rest) =
      if h1 ≠ head1 ∨ h2 ≠ head2 then .invalid .headMismatch
      else if frameChecksum cmd p ≠ bcc then .invalid .checksumMismatch
      else if t1 ≠ tail1 ∨ t2 ≠ tail2 then .invalid .trailerMismatch
      else .valid (ofCmd cmd p) := by
  have hlen : boundLength c (be16 (BitVec.ofNat 8 (p.length / 256)) (BitVec.ofNat 8 p.length)) = some p.length := by
    rw [be16_length p.length (hp.trans c.maxPayload_le), boundLength_of_le hp]
  simp only [frameWith, List.cons_append, List.nil_append, List.append_assoc]
  rw [decode_eq_checks hlen List.drop_left, List.take_left]
  rfl

/-- Settles O8: behind a right head a wrong sentinel is in the trailer, so the last check fails where the checksum check passes. -/
theorem sentinelCorruptionIsAlwaysReported : Obligations.SentinelCorruptionIsAlwaysReported := by
  refine fun c cmd p rest hp => ⟨frameWith_eq_encodeFrame cmd p, fun h1 h2 bcc t1 t2 hwrong => ?_⟩
  rw [decode_frameWith_append h1 h2 cmd bcc t1 t2 rest hp]
  by_cases hhead : h1 ≠ head1 ∨ h2 ≠ head2
  · rw [if_pos hhead, if_pos hhead]
  · have htail : t1 ≠ tail1 ∨ t2 ≠ tail2 := (or_assoc.mpr hwrong).resolve_left hhead
    rw [if_neg hhead, if_neg hhead, if_pos htail, ← apply_ite Decoded.invalid]
    simp only [ne_comm (a := bcc)]

/-! ### The pseudocode's length bound and checksum -/

theorem boundLength_eq_none_iff {c : Config} {n : Nat} :
    boundLength c n = none ↔ c.maxPayload < n ∧ c.overlenPolicy = .reject := by
  by_cases hn : n ≤ c.maxPayload
  · simp [boundLength_of_le hn, hn]
  · cases hpol : c.overlenPolicy <;> simp [boundLength, hn, hpol, Nat.lt_of_not_le hn]

theorem foldl_xor_eq_xorFold (bs : List Byte) (x : Byte) : bs.foldl (· ^^^ ·) x = x ^^^ xorFold bs := by
  induction bs generalizing x with
  | nil => simp
  | cons b bs ih => rw [List.foldl_cons, ih, xorFold_cons, BitVec.xor_assoc]

end Sys2Proof

namespace Sys2Proof.Machine

variable {s : State} {len : Nat}

/-- The loop of 41_frame_decoder.md R93 over the indices `2 .. 4+LEN` computes the checksum of R88. -/
theorem Memory.foldl_xor_read (m : Memory) (len : Nat) :
    (List.range (3 + len)).foldl (fun x k => x ^^^ m.read (2 + k)) 0x00 =
      xorFold (m.read 2 :: m.read 3 :: m.read 4 :: m.readRange 5 len) := by
  have hrange : m.readRange 2 (3 + len) = m.read 2 :: m.read 3 :: m.read 4 :: m.readRange 5 len := Memory.readRange_add m 3 2 len
  rw [← hrange, Memory.readRange_eq_map, ← BitVec.zero_xor (x := xorFold _), ← foldl_xor_eq_xorFold, List.foldl_map]
  rfl

/-- The bytes behind the payload are those at `5+LEN`, `6+LEN` and `7+LEN` (30_encoding.md R51), inside the buffer since `LEN` is
bounded (41_frame_decoder.md R92). -/
theorem Memory.drop_readRange_body (m : Memory) {len n : Nat} (h : len ≤ n) :
    ∃ rest, (m.readRange 5 (n + 3)).drop len = m.read (5 + len) :: m.read (6 + len) :: m.read (7 + len) :: rest := by
  obtain ⟨d, rfl⟩ := Nat.exists_eq_add_of_le h
  refine ⟨m.readRange (5 + len + 3) d, ?_⟩
  rw [Nat.add_assoc, Nat.add_comm d 3, Memory.readRange_add, List.drop_left' (Memory.length_readRange m len 5),
    Memory.readRange_add, Nat.add_right_comm 5 1 len, Nat.add_right_comm 5 2 len]
  rfl

/-! ### The decoder and its pseudocode over the buffer's indices -/

/-- `decode_eq_checks` for the candidate frame in the buffer. -/
theorem State.fetch_eq_checks (hlen : boundLength s.config (be16 (s.buf.read 3) (s.buf.read 4)) = some len) :
    s.fetch =
      if s.buf.read 0 ≠ head1 ∨ s.buf.read 1 ≠ head2 then .invalid .headMismatch
      else if xorFold (s.buf.read 2 :: s.buf.read 3 :: s.buf.read 4 :: s.buf.readRange 5 len) ≠ s.buf.read (5 + len) then
        .invalid .checksumMismatch
      else if s.buf.read (6 + len) ≠ tail1 ∨ s.buf.read (7 + len) ≠ tail2 then .invalid .trailerMismatch
      else .valid (ofCmd (s.buf.read 2) (s.buf.readRange 5 len)) := by
  have hle := boundLength_le hlen
  obtain ⟨rest, hdrop⟩ := s.buf.drop_readRange_body hle
  rw [State.fetch, State.bufBytes_eq, decode_eq_checks hlen hdrop, Memory.take_readRange _ _ (by omega)]

/-- A length the policy refuses is reported unless the head is wrong already (41_frame_decoder.md R84, R87). -/
theorem State.fetch_eq_of_length_refused (hlen : boundLength s.config (be16 (s.buf.read 3) (s.buf.read 4)) = none) :
    s.fetch = if s.buf.read 0 ≠ head1 ∨ s.buf.read 1 ≠ head2 then .invalid .headMismatch else .invalid .lengthTooLarge := by
  simp only [State.fetch, State.bufBytes_eq, decode, hlen]

/-- The pseudocode makes the checks of `State.fetch_eq_checks`. -/
theorem decodeByIndex_eq_checks {c : Config} {m : Memory} (hlen : boundLength c (be16 (m.read 3) (m.read 4)) = some len) :
    decodeByIndex c m.read =
      if m.read 0 ≠ head1 ∨ m.read 1 ≠ head2 then none
      else if xorFold (m.read 2 :: m.read 3 :: m.read 4 :: m.readRange 5 len) ≠ m.read (5 + len) then none
      else if m.read (6 + len) ≠ tail1 ∨ m.read (7 + len) ≠ tail2 then none
      else some (m.read 2, len) := by
  have hfits : ¬(c.maxPayload < be16 (m.read 3) (m.read 4) ∧ c.overlenPolicy = .reject) := fun hrefused =>
    Option.some_ne_none len (hlen.symm.trans (boundLength_eq_none_iff.mpr hrefused))
  obtain rfl := boundLength_eq_min hlen
  rw [be16] at hfits
  simp only [decodeByIndex, if_neg hfits, Memory.foldl_xor_read]
  rfl

theorem decodeByIndex_eq_none_of_length_refused {c : Config} {m : Memory}
    (hlen : boundLength c (be16 (m.read 3) (m.read 4)) = none) : decodeByIndex c m.read = none := by
  have hrefused := boundLength_eq_none_iff.mp hlen
  rw [be16] at hrefused
  simp only [decodeByIndex, if_pos hrefused, ite_self]

end Sys2Proof.Machine

namespace Sys2Proof

open Sys2Proof.Machine

/-- Settles O6: a refused length is a rejection on both sides; otherwise decoder and pseudocode make the same three checks. -/
theorem decoderFollowsItsPseudocode : Obligations.DecoderFollowsItsPseudocode := by
  intro s
  cases hlen : boundLength s.config (be16 (s.buf.read 3) (s.buf.read 4)) with
  | none =>
    rw [decodeByIndex_eq_none_of_length_refused hlen, State.fetch_eq_of_length_refused hlen]
    refine ⟨nofun, fun _ => ?_⟩
    split_ifs
    · exact .inl rfl
    · exact .inr (.inl rfl)
  | some len =>
    rw [decodeByIndex_eq_checks hlen, State.fetch_eq_checks hlen]
    split_ifs with hhead hsum htail
    · exact ⟨nofun, fun _ => .inl rfl⟩
    · exact ⟨nofun, fun _ => .inr (.inr (.inl rfl))⟩
    · exact ⟨nofun, fun _ => .inr (.inr (.inr rfl))⟩
    · refine ⟨fun cmd len' haccept => ?_, nofun⟩
      obtain ⟨rfl, rfl⟩ := Prod.mk.inj (Option.some.inj haccept)
      rw [Memory.readRange_eq_map]

end Sys2Proof
end

section
/-! PROOF. DATA, END, and the session that DATA frames build behind a BEGIN (42_command_dispatch.md R100 to R112): O30, O32, O37. -/

namespace Sys2Proof.Machine

variable {s s' : State}

/-! ### A command with no action -/

theorem acknowledgedOnly_of_isPassive {i : Instr} (hi : IsPassive i) (s : State) : AcknowledgedOnly i s :=
  ⟨_, exec_passive hi s, rfl, rfl, rfl, ⟨fun _ => rfl, rfl, rfl, rfl, rfl⟩, ⟨rfl, rfl⟩, ⟨rfl, rfl, rfl⟩, ⟨rfl, rfl⟩⟩

/-! ### The two outcomes of a storage write -/

theorem writeResult_short {written len : Nat} (h : written < len) : writeResult written len = .storageFull := if_pos h

theorem writeResult_stored {written len : Nat} (h : len ≤ written) : writeResult written len = .ok := if_neg h.not_gt

theorem bytesStoredAfter_short {written len : Nat} (b : Offset) (h : written < len) : bytesStoredAfter b written len = b :=
  if_pos h

theorem bytesStoredAfter_stored {written len : Nat} (b : Offset) (h : len ≤ written) :
    bytesStoredAfter b written len = b + BitVec.ofNat 32 written := if_neg h.not_gt

/-- An answer the environment lists is the storage's answer, if it fits WRITTEN_BITS bits (00_scope.md R11). -/
theorem State.storeAnswer_cons {w : Nat} {ws : List Nat} (h : s.storeAnswers = w :: ws) (hw : w < 2 ^ s.config.writtenBits) :
    s.storeAnswer = w := by
  simp only [State.storeAnswer, h, Nat.mod_eq_of_lt hw]

theorem execAll_cons {i : Instr} {is : List Instr} (h : exec i s = .next s') : execAll (i :: is) s = execAll is s' := by
  simp only [execAll, h]

end Sys2Proof.Machine

namespace Sys2Proof

open Sys2Proof.Machine

/-- Settles O32: END is one of the commands that only take the result OK. -/
theorem endOnlyAcknowledges : Obligations.EndOnlyAcknowledges := fun p s =>
  acknowledgedOnly_of_isPassive (i := .end_ p) trivial s

/-- Settles O30: the answer decides the count and the result; no other field depends on it. -/
theorem dataWritesAndCounts : Obligations.DataWritesAndCounts := fun p s =>
  ⟨_, exec_data p s, rfl, rfl, rfl,
    fun hshort => ⟨bytesStoredAfter_short _ hshort, congrArg Result.code (writeResult_short hshort)⟩,
    fun hstored => ⟨bytesStoredAfter_stored _ hstored, congrArg Result.code (writeResult_stored hstored)⟩,
    rfl, rfl, rfl, ⟨fun _ => rfl, rfl, rfl, rfl, rfl⟩, ⟨rfl, rfl⟩⟩

end Sys2Proof

namespace Sys2Proof.Machine

variable {s : State}

/-! ### BEGIN, then a run of DATA frames, none answered short -/

/-- BEGIN starts a session at its offset and requests nothing (42_command_dispatch.md R102). -/
theorem exec_begin_opens_session (p : List Byte) (s : State) :
    ∃ t, exec (.begin p) s = .next t ∧ t.baseOffset = s.beginOffset ∧ t.bytesStored = 0 ∧ s.NothingRequested t ∧
      s.EnvironmentKept t :=
  ⟨_, exec_begin p s, rfl, rfl, ⟨rfl, rfl, rfl⟩, ⟨rfl, rfl⟩⟩

/-- One DATA frame with a listed answer that is not short (42_command_dispatch.md R100, R101). -/
theorem exec_data_stored {p : List Byte} {w : Nat} {ws : List Nat} (ha : s.storeAnswers = w :: ws)
    (hw : w < 2 ^ s.config.writtenBits) (hp : p.length ≤ w) :
    ∃ t, exec (.data p) s = .next t ∧ t.baseOffset = s.baseOffset ∧ t.bytesStored = s.bytesStored + BitVec.ofNat 32 w ∧
      t.storeAnswers = ws ∧ t.config = s.config ∧ t.outputs = s.outputs ++ [.storeWrite s.dataOffset p.length p w] := by
  obtain ⟨t, ht, hout, hanswers, -, -, hstored, hbase, -, -, -, henv⟩ := dataWritesAndCounts p s
  rw [State.storeAnswer_cons ha hw] at hout hstored
  rw [ha] at hanswers
  exact ⟨t, ht, hbase, (hstored hp).1, hanswers, henv.config, hout⟩

/-- The `k`-th request of a run of DATA frames that starts at offset `o`: the `k`-th payload, at `o` plus the answers before it
(42_command_dispatch.md R112). -/
def dataRequest (o : Offset) (ps : List (List Byte)) (ws : List Nat) (k : Nat) : Output :=
  .storeWrite (o + BitVec.ofNat 32 (ws.take k).sum) (ps.getD k []).length (ps.getD k []) (ws.getD k 0)

theorem dataRequest_zero (o : Offset) (p : List Byte) (ps : List (List Byte)) (w : Nat) (ws : List Nat) :
    dataRequest o (p :: ps) (w :: ws) 0 = .storeWrite o p.length p w := by
  simp [dataRequest]

/-- After the first request the run goes on like one that starts at the offset behind it. -/
theorem dataRequest_succ (o : Offset) (p : List Byte) (ps : List (List Byte)) (w : Nat) (ws : List Nat) (k : Nat) :
    dataRequest o (p :: ps) (w :: ws) (k + 1) = dataRequest (o + BitVec.ofNat 32 w) ps ws k := by
  simp [dataRequest, BitVec.ofNat_add, BitVec.add_assoc]

theorem map_dataRequest_cons (o : Offset) (p : List Byte) (ps : List (List Byte)) (w : Nat) (ws : List Nat) :
    (List.range (p :: ps).length).map (dataRequest o (p :: ps) (w :: ws)) =
      .storeWrite o p.length p w :: (List.range ps.length).map (dataRequest (o + BitVec.ofNat 32 w) ps ws) := by
  rw [List.length_cons, List.range_succ_eq_map, List.map_cons, List.map_map, dataRequest_zero]
  exact congrArg _ (List.map_congr_left fun k _ => dataRequest_succ o p ps w ws k)

/-- DATA frames that are not answered short write contiguously from wherever the session stands. -/
theorem execAll_data_contiguous (ps : List (List Byte)) (ws more : List Nat) (ha : s.storeAnswers = ws ++ more)
    (hlen : ws.length = ps.length) (hw : ∀ w ∈ ws, w < 2 ^ s.config.writtenBits)
    (hp : ∀ k, k < ps.length → (ps.getD k []).length ≤ ws.getD k 0) :
    ∃ t, execAll (ps.map .data) s = .next t ∧ t.baseOffset = s.baseOffset ∧
      t.bytesStored = s.bytesStored + BitVec.ofNat 32 ws.sum ∧ t.storeAnswers = more ∧
      t.outputs = s.outputs ++ (List.range ps.length).map (dataRequest s.dataOffset ps ws) := by
  induction ps generalizing s ws with
  | nil =>
    obtain rfl := List.length_eq_zero_iff.mp hlen
    exact ⟨s, rfl, rfl, (BitVec.add_zero _).symm, ha, (List.append_nil _).symm⟩
  | cons p ps ih =>
    obtain ⟨w, ws, rfl⟩ := List.exists_cons_of_length_eq_add_one hlen
    obtain ⟨u, hu, hubase, hucount, huanswers, huconfig, huout⟩ :=
      exec_data_stored (p := p) ha (hw w List.mem_cons_self) (hp 0 (Nat.zero_lt_succ _))
    have huoffset : u.dataOffset = s.dataOffset + BitVec.ofNat 32 w := by
      rw [State.dataOffset, State.dataOffset, hubase, hucount, BitVec.add_assoc]
    obtain ⟨t, ht, htbase, htcount, htanswers, htout⟩ := ih ws huanswers (Nat.succ.inj hlen)
      (fun v hv => huconfig ▸ hw v (List.mem_cons_of_mem w hv)) (fun k hk => hp (k + 1) (Nat.succ_lt_succ hk))
    refine ⟨t, (execAll_cons hu).trans ht, htbase.trans hubase, ?count, htanswers, ?requests⟩
    case count => rw [htcount, hucount, List.sum_cons, BitVec.ofNat_add, BitVec.add_assoc]
    case requests => rw [htout, huout, huoffset, map_dataRequest_cons, List.append_assoc, List.singleton_append]

end Sys2Proof.Machine

namespace Sys2Proof

open Sys2Proof.Machine

/-- Settles O37: BEGIN sets the session to (O, 0), and the run of DATA frames goes on from there. -/
theorem dataAfterBeginIsContiguous : Obligations.DataAfterBeginIsContiguous := by
  intro s q ps ws more ha hlen hw hp
  obtain ⟨u, hu, hubase, hucount, hureq, huenv⟩ := exec_begin_opens_session q s
  have huoffset : u.dataOffset = s.beginOffset := by rw [State.dataOffset, hubase, hucount, add_zero]
  obtain ⟨t, ht, htbase, htcount, htanswers, htout⟩ := execAll_data_contiguous ps ws more (hureq.storeAnswers.trans ha) hlen
    (huenv.config.symm ▸ hw) hp
  refine ⟨t, (execAll_cons hu).trans ht, htbase.trans hubase, ?count, htanswers, ?requests⟩
  case count => rw [htcount, hucount, zero_add]
  case requests =>
    rw [htout, hureq.outputs, huoffset]
    rfl

end Sys2Proof
end

section
/-! PROOF. Who issues the requests (43_ack_encoder.md R117, R118, 44_sequencer.md R128): O29. -/

namespace Sys2Proof.Machine

variable {s s' : State}

/-- Of the received commands only DATA issues a request, its one StoreWrite (42_command_dispatch.md R100). -/
theorem exec_received_outputs_cases {i : Instr} (hi : i.isReceived = true) (h : exec i s = .next s') :
    s'.outputs = s.outputs ∨
    ∃ p, i = .data p ∧ s'.outputs = s.outputs ++ [.storeWrite s.dataOffset p.length p s.storeAnswer] := by
  obtain ⟨p, rfl, rfl⟩ | ⟨p, -, rfl⟩ | ⟨-, rfl⟩ | ⟨c, r, rfl, -⟩ := exec_cases h
  · exact .inr ⟨p, rfl, rfl⟩
  · exact .inl rfl
  · exact .inl rfl
  · cases hi

end Sys2Proof.Machine

namespace Sys2Proof

open Sys2Proof.Machine

/-- Settles O29, turn by turn in the order of `step_cases`: no input and no SeqStart issues a request, so what is left is the
execution of a valid frame and SeqAck. -/
theorem requestsComeOnlyFromTheSequencer : Obligations.RequestsComeOnlyFromTheSequencer := by
  intro s s' h
  obtain ⟨-, rfl⟩ | ⟨-, rfl⟩ | ⟨b, -, rfl⟩ | ⟨-, rfl⟩ | ⟨-, -, rfl⟩ | ⟨ht, hp, i, hf, he⟩ | ⟨-, -, e, -, -, rfl⟩ |
    ⟨ht, hp, rfl⟩ := step_cases h
  · exact .inl rfl
  · exact .inl (State.clear_outputs s.popTurn)
  · exact .inl (State.rxByte_outputs s.popTurn b)
  · exact .inl (State.tick_outputs s.popTurn)
  · exact .inl (State.seqStart_outputs s.popTurn)
  · obtain hout | ⟨p, rfl, hout⟩ := exec_received_outputs_cases (isReceived_of_fetch hf) he
    · exact .inl hout
    · exact .inr (.inl ⟨ht, hp, p, hf, hout⟩)
  · exact .inl rfl
  · exact .inr (.inr ⟨ht, hp, rfl, rfl⟩)

end Sys2Proof
end

section
/-! PROOF. The sequencer's three steps and the phase they move (44_sequencer.md R121 to R124): O20, O22, O25. -/

namespace Sys2Proof.Machine

variable {s s' : State}

/-! ### The sequencer's turn, frame by frame -/

/-- The decoder's pseudocode either accepts the candidate frame or fails one of its four checks (41_frame_decoder.md R92, R93). -/
theorem State.fetch_ne_indexOutOfRange (s : State) : s.fetch ≠ .invalid .indexOutOfRange := by
  obtain ⟨haccept, hreject⟩ := decoderFollowsItsPseudocode s
  cases h : decodeByIndex s.config s.buf.read with
  | none => obtain hf | hf | hf | hf := hreject h <;> simp [hf]
  | some frame => simp [haccept frame.1 frame.2 h]

/-- In DECODING a frame that fails verification is not executed (44_sequencer.md R122, 60_exceptions.md R133). -/
theorem step_offer_sequencer_invalid {e : DecodeError} (hp : s.phase = .decoding) (hf : s.fetch = .invalid e) :
    step (s.offer .sequencer) = .next s.raiseVerificationError := by
  have he : e ≠ .indexOutOfRange := fun h => s.fetch_ne_indexOutOfRange (h ▸ hf)
  simp only [step_offer_sequencer, sequencerStep, hp, hf]

/-- In ACK_PENDING the sequencer's turn is SeqAck (44_sequencer.md R123). -/
theorem step_offer_sequencer_ackPending (hp : s.phase = .ackPending) :
    step (s.offer .sequencer) = .next (s.txSend (ackFrame s.ackCmd s.ackRes)).endService := by
  simp only [step_offer_sequencer, sequencerStep, hp, exec_ackTx]

/-! ### What SeqExecute leaves -/

theorem exec_next (i : Instr) (s : State) : ∃ t, exec i s = .next t := by
  cases i <;> exact ⟨_, rfl⟩

/-- What SeqExecute does for every frame, valid or not: `buf[2]` is latched, the ACK is pending, and neither the receiver nor the
environment is touched (44_sequencer.md R122). -/
structure State.AckLatched (s t : State) : Prop where
  ackCmd : t.ackCmd = s.buf.read 2
  phase : t.phase = .ackPending
  receiver : s.ReceiverUnchanged t
  environment : s.EnvironmentKept t

theorem State.ackLatched_raiseVerificationError (s : State) : s.AckLatched s.raiseVerificationError :=
  ⟨rfl, rfl, ⟨fun _ => rfl, rfl, rfl, rfl, rfl⟩, ⟨rfl, rfl⟩⟩

theorem exec_received_ackLatched {i : Instr} (hi : i.isReceived = true) (h : exec i s = .next s') : s.AckLatched s' := by
  obtain ⟨p, -, rfl⟩ | ⟨p, -, rfl⟩ | ⟨-, rfl⟩ | ⟨c, r, rfl, -⟩ := exec_cases h
  · exact ⟨rfl, rfl, ⟨fun _ => rfl, rfl, rfl, rfl, rfl⟩, ⟨rfl, rfl⟩⟩
  · exact ⟨rfl, rfl, ⟨fun _ => rfl, rfl, rfl, rfl, rfl⟩, ⟨rfl, rfl⟩⟩
  · exact ⟨rfl, rfl, ⟨fun _ => rfl, rfl, rfl, rfl, rfl⟩, ⟨rfl, rfl⟩⟩
  · cases hi

/-- A storage answer ends in RES_OK or in RES_FULL (42_command_dispatch.md R100, R101). -/
theorem code_writeResult (written len : Nat) : (writeResult written len).code = 0x00 ∨ (writeResult written len).code = 0x02 := by
  obtain h | h := Nat.lt_or_ge written len
  · exact .inr (congrArg Result.code (writeResult_short h))
  · exact .inl (congrArg Result.code (writeResult_stored h))

/-- Executing a verified frame never latches the verification error (60_exceptions.md R132). -/
theorem exec_received_ackRes {i : Instr} (hi : i.isReceived = true) (h : exec i s = .next s') :
    s'.ackRes = 0x00 ∨ s'.ackRes = 0x02 := by
  obtain ⟨p, -, rfl⟩ | ⟨p, -, rfl⟩ | ⟨-, rfl⟩ | ⟨c, r, rfl, -⟩ := exec_cases h
  · exact code_writeResult s.storeAnswer p.length
  · exact .inl rfl
  · exact .inl rfl
  · cases hi

/-- A received command other than DATA draws no storage answer and issues no request. -/
theorem exec_received_nothingRequested {i : Instr} (hi : i.isReceived = true) (hdata : ∀ p, i ≠ .data p)
    (h : exec i s = .next s') : s.NothingRequested s' := by
  obtain ⟨p, rfl, -⟩ | ⟨p, -, rfl⟩ | ⟨-, rfl⟩ | ⟨c, r, rfl, -⟩ := exec_cases h
  · exact absurd rfl (hdata p)
  · exact ⟨rfl, rfl, rfl⟩
  · exact ⟨rfl, rfl, rfl⟩
  · cases hi

end Sys2Proof.Machine

namespace Sys2Proof

open Sys2Proof.Machine

/-- Settles O20: in IDLE the sequencer's turn is SeqStart, and its two cases are the two clauses. -/
theorem seqStartWaitsForFrameReady : Obligations.SeqStartWaitsForFrameReady := by
  intro s hp
  rw [step_offer_sequencer_idle hp]
  exact ⟨fun hr => congrArg _ (State.seqStart_ready hr), fun hr => congrArg _ (State.seqStart_waits hr)⟩

/-- Settles O22: an invalid frame raises the verification error, a valid one is executed as a received command; both leave the ACK
pending, so that the next sequencer step is SeqAck. -/
theorem seqExecuteLatchesAndMovesOn : Obligations.SeqExecuteLatchesAndMovesOn := by
  intro s hp
  cases hf : s.fetch with
  | invalid e =>
    obtain ⟨hcmd, hphase, hreceiver, henvironment⟩ := s.ackLatched_raiseVerificationError
    exact ⟨_, step_offer_sequencer_invalid hp hf, hcmd, hphase, hreceiver, henvironment,
      fun _ _ => ⟨rfl, ⟨rfl, rfl⟩, ⟨rfl, rfl, rfl⟩⟩, nofun, nofun, fun _ => ⟨rfl, rfl, rfl⟩,
      _, step_offer_sequencer_ackPending hphase, rfl, State.receiverCleared_endService _⟩
  | valid i =>
    have hi := isReceived_of_fetch hf
    obtain ⟨t, ht⟩ := exec_next i s
    obtain ⟨hcmd, hphase, hreceiver, henvironment⟩ := exec_received_ackLatched hi ht
    refine ⟨t, (step_offer_sequencer_valid hp hf).trans ht, hcmd, hphase, hreceiver, henvironment, nofun, fun j hj => ?result,
      fun p hdata => ?write, fun hother => ?noRequest,
      _, step_offer_sequencer_ackPending hphase, rfl, State.receiverCleared_endService _⟩
    case result =>
      obtain rfl := Decoded.valid.inj hj
      exact ⟨ht, exec_received_ackRes hi ht⟩
    case write =>
      obtain rfl := Decoded.valid.inj hdata
      obtain rfl := Host.Outcome.next.inj ((exec_data p s).symm.trans ht)
      rfl
    case noRequest => exact exec_received_nothingRequested hi (fun p hdata => hother p (congrArg _ hdata)) ht

/-- Settles O25: the first clause turn by turn in the order of `step_cases`; in the second, SeqStart leaves the buffer alone, so the frame
is still invalid when SeqExecute decodes it. -/
theorem phaseFollowsTheOneCycle : Obligations.PhaseFollowsTheOneCycle := by
  refine ⟨fun s s' h => ?cycle, fun s e hp hr hf => ?failedFrame⟩
  case cycle =>
    obtain ⟨ht, rfl⟩ | ⟨-, rfl⟩ | ⟨b, -, rfl⟩ | ⟨-, rfl⟩ | ⟨ht, hp, rfl⟩ | ⟨ht, hp, i, hf, he⟩ | ⟨ht, hp, e, -, -, rfl⟩ |
      ⟨ht, hp, rfl⟩ := step_cases h
    · exact .inr (.inl ⟨ht, rfl⟩)
    · exact .inl (State.clear_phase s.popTurn)
    · exact .inl (State.rxByte_phase s.popTurn b)
    · exact .inl (State.tick_phase s.popTurn)
    · cases hr : s.frameReady with
      | false =>
        rw [State.seqStart_waits (s := s.popTurn) hr]
        exact .inl rfl
      | true => exact .inr (.inr ⟨ht, .inl ⟨hp, congrArg State.phase (State.seqStart_ready (s := s.popTurn) hr)⟩⟩)
    · exact .inr (.inr ⟨ht, .inr (.inl ⟨hp, (exec_received_ackLatched (isReceived_of_fetch hf) he).phase⟩)⟩)
    · exact .inr (.inr ⟨ht, .inr (.inl ⟨hp, rfl⟩)⟩)
    · exact .inr (.inr ⟨ht, .inr (.inr ⟨hp, rfl⟩)⟩)
  case failedFrame =>
    exact ⟨_, _, _, (seqStartWaitsForFrameReady s hp).1 hr, step_offer_sequencer_invalid rfl hf, step_offer_sequencer_ackPending rfl,
      rfl, rfl, rfl, rfl, ⟨rfl, rfl⟩, rfl⟩

end Sys2Proof
end

section
/-! PROOF. Inputs during a service (44_sequencer.md R125, R129), and the ACK that ends it (R128, R130): O26, O27, O28. -/

namespace Sys2Proof.Machine

variable {s : State}

/-! ### Inputs that change nothing -/

/-- A byte is dropped and a tick counts nothing while a frame waits (40_receive_buffer_and_timer.md R72, R75). -/
theorem step_offer_byteOrTick_waiting {t : Turn} (hready : s.frameReady = true) (hreceiving : s.receiving = false)
    (ht : t.isByteOrTick = true) : step (s.offer t) = .next s := by
  cases t with
  | rxByte b => exact congrArg _ (State.rxByte_dropped b hready)
  | tick => exact congrArg _ (State.tick_inactive hreceiving)
  | reset | clear | sequencer => cases ht

/-- Outside IDLE a Clear is ignored too (40_receive_buffer_and_timer.md R78). -/
theorem step_offer_input_busy {t : Turn} (hready : s.frameReady = true) (hreceiving : s.receiving = false)
    (hbusy : s.phase ≠ .idle) (ht : t.isInput = true) : step (s.offer t) = .next s := by
  cases t with
  | rxByte b => exact step_offer_byteOrTick_waiting hready hreceiving rfl
  | tick => exact step_offer_byteOrTick_waiting hready hreceiving rfl
  | clear => exact congrArg _ (State.clear_busy hbusy)
  | reset | sequencer => cases ht

/-- Turns none of which changes a state do not change it together. -/
theorem runTurns_fixed {ts : List Turn} (h : ∀ t ∈ ts, step (s.offer t) = .next s) : runTurns ts s = .next s := by
  induction ts with
  | nil => rfl
  | cons t ts ih => rw [runTurns_cons (h t List.mem_cons_self), ih fun u hu => h u (List.mem_cons_of_mem t hu)]

theorem runTurns_bytesAndTicks_waiting {ts : List Turn} (hready : s.frameReady = true) (hreceiving : s.receiving = false)
    (hts : ∀ t ∈ ts, t.isByteOrTick = true) : runTurns ts s = .next s :=
  runTurns_fixed fun t ht => step_offer_byteOrTick_waiting hready hreceiving (hts t ht)

theorem runTurns_inputs_busy {ts : List Turn} (hready : s.frameReady = true) (hreceiving : s.receiving = false)
    (hbusy : s.phase ≠ .idle) (hts : ∀ t ∈ ts, t.isInput = true) : runTurns ts s = .next s :=
  runTurns_fixed fun t ht => step_offer_input_busy hready hreceiving hbusy (hts t ht)

end Sys2Proof.Machine

namespace Sys2Proof

open Sys2Proof.Machine

/-- Settles O26: a safe state outside IDLE has a frame waiting, and a safe state with a frame waiting receives nothing. -/
theorem inputsDuringAServiceChangeNothing : Obligations.InputsDuringAServiceChangeNothing := by
  refine ⟨fun s ts hs hbusy hts => ?busy, fun s ts hs hready hts => ?waiting⟩
  case busy =>
    obtain ⟨hready, hreceiving⟩ := hs.busy hbusy
    exact runTurns_inputs_busy hready hreceiving hbusy hts
  case waiting => exact runTurns_bytesAndTicks_waiting hready (hs.not_receiving hready) hts

/-- Settles O27: SeqStart and SeqExecute leave the receiver alone, so before each of the three steps a frame waits and nothing is being
received, and the inputs there change nothing. -/
theorem interruptedServiceEqualsFusedService : Obligations.InterruptedServiceEqualsFusedService := by
  intro s e₀ e₁ e₂ hs hp hready he₀ he₁ he₂
  have hreceiving := hs.not_receiving hready
  have hstart := (seqStartWaitsForFrameReady s hp).1 hready
  obtain ⟨u, hexecute, -, hphase, hreceiver, -⟩ := seqExecuteLatchesAndMovesOn { s with phase := .decoding } rfl
  have hbefore : runTurns e₀ s = .next s := runTurns_bytesAndTicks_waiting hready hreceiving he₀
  have hdecoding : runTurns e₁ { s with phase := .decoding } = .next { s with phase := .decoding } :=
    runTurns_inputs_busy hready hreceiving nofun he₁
  have hpending : runTurns e₂ u = .next u :=
    runTurns_inputs_busy (hreceiver.frameReady.trans hready) (hreceiver.receiving.trans hreceiving) (by simp [hphase]) he₂
  simp only [List.append_assoc, List.cons_append, List.nil_append]
  rw [runTurns_append hbefore, runTurns_cons hstart, runTurns_append hdecoding, runTurns_cons hexecute, runTurns_append hpending,
    runTurns_cons hstart, runTurns_cons hexecute]

end Sys2Proof

namespace Sys2Proof.Machine

variable {s u : State}

/-- SeqStart, then what SeqExecute makes of the frame, then SeqAck. -/
theorem runTurns_service (hp : s.phase = .idle) (hready : s.frameReady = true)
    (hexecute : step (State.offer .sequencer { s with phase := .decoding }) = .next u) (hpending : u.phase = .ackPending) :
    runTurns [.sequencer, .sequencer, .sequencer] s = .next (u.txSend (ackFrame u.ackCmd u.ackRes)).endService := by
  rw [runTurns_cons ((seqStartWaitsForFrameReady s hp).1 hready), runTurns_cons hexecute,
    runTurns_cons (step_offer_sequencer_ackPending hpending)]
  rfl

end Sys2Proof.Machine

namespace Sys2Proof

open Sys2Proof.Machine

/-- Settles O28: SeqAck adds its one TxSend to what SeqExecute requested, which is the StoreWrite of a valid DATA or nothing. -/
theorem serviceSendsExactlyOneAck : Obligations.ServiceSendsExactlyOneAck := by
  intro s hp hready
  obtain ⟨u, hexecute, hcmd, hphase, -, -, hinvalid, hvalid, hdata, hother, -⟩ :=
    seqExecuteLatchesAndMovesOn { s with phase := .decoding } rfl
  have hlegal : isResultCode u.ackRes = true := by
    cases hf : s.fetch with
    | invalid e =>
      rw [(hinvalid e hf).1]
      rfl
    | valid i =>
      obtain hok | hfull := (hvalid i hf).2
      · rw [hok]
        rfl
      · rw [hfull]
        rfl
  have hack : (u.txSend (ackFrame u.ackCmd u.ackRes)).endService.outputs =
      u.outputs ++ [.txSend (ackFrame (s.buf.read 2) u.ackRes) 10] := hcmd ▸ rfl
  refine ⟨_, u.ackRes, runTurns_service hp hready hexecute hphase, rfl, State.receiverCleared_endService _, hlegal, ?requests⟩
  case requests =>
    rw [hack]
    by_cases hd : ∃ p, s.fetch = .valid (.data p)
    · obtain ⟨p, hf⟩ := hd
      refine .inl ⟨p, hf, ?_⟩
      rw [hdata p hf, List.append_assoc]
      rfl
    · have hnotData := not_exists.mp hd
      exact .inr ⟨hnotData, congrArg (· ++ _) (hother hnotData).outputs⟩

end Sys2Proof
end

section
/-! PROOF. The result codes and the end of every service (60_exceptions.md R132 to R137, R147): O23, O43. -/

namespace Sys2Proof.Machine

variable {s s' t : State}

/-! ### The result a verified frame ends in -/

theorem code_ok_ne_full : Result.ok.code ≠ 0x02 := by decide

/-- A storage write ends in RES_FULL exactly when it was answered short (60_exceptions.md R134, the spec's decision D15). -/
theorem code_writeResult_full_iff {written len : Nat} : (writeResult written len).code = 0x02 ↔ written < len := by
  obtain h | h := Nat.lt_or_ge written len
  · exact iff_of_true (congrArg Result.code (writeResult_short h)) h
  · rw [writeResult_stored h]
    exact iff_of_false code_ok_ne_full h.not_gt

/-- Of the received commands only a DATA answered short ends in RES_FULL (60_exceptions.md R134). -/
theorem exec_received_full_iff {i : Instr} (hi : i.isReceived = true) (h : exec i s = .next s') :
    s'.ackRes = 0x02 ↔ ∃ p, i = .data p ∧ s.storeAnswer < p.length := by
  obtain ⟨p, rfl, rfl⟩ | ⟨p, rfl, rfl⟩ | ⟨hpassive, rfl⟩ | ⟨c, r, rfl, -⟩ := exec_cases h
  · rw [State.takeResult_ackRes, code_writeResult_full_iff]
    simp
  · exact iff_of_false code_ok_ne_full (by simp)
  · refine iff_of_false code_ok_ne_full ?_
    rintro ⟨p, rfl, -⟩
    exact hpassive
  · cases hi

/-- A DATA answered short leaves the session (42_command_dispatch.md R101). -/
theorem exec_data_short_sessionUnchanged {p : List Byte} (hshort : s.storeAnswer < p.length)
    (h : exec (.data p) s = .next s') : s.SessionUnchanged s' := by
  obtain rfl := Host.Outcome.next.inj ((exec_data p s).symm.trans h)
  exact ⟨rfl, bytesStoredAfter_short _ hshort⟩

/-! ### From DECODING to rest -/

/-- What SeqExecute does in every state in DECODING. -/
theorem step_offer_sequencer_decoding (hp : s.phase = .decoding) :
    ∃ t, step (s.offer .sequencer) = .next t ∧ s.AckLatched t := by
  obtain ⟨t, ht, hcmd, hphase, hreceiver, henvironment, -⟩ := seqExecuteLatchesAndMovesOn s hp
  exact ⟨t, ht, hcmd, hphase, hreceiver, henvironment⟩

theorem State.atRest_endService (s : State) : s.endService.AtRest := ⟨rfl, rfl⟩

/-- A latched pair is sent by the next sequencer step, which ends the service (44_sequencer.md R123, 43_ack_encoder.md R116). -/
theorem State.AckLatched.seqAck (h : s.AckLatched t) :
    ∃ v, step (t.offer .sequencer) = .next v ∧
      v.outputs = t.outputs ++ [.txSend (ackFrame (s.buf.read 2) t.ackRes) 10] ∧ v.AtRest :=
  ⟨_, step_offer_sequencer_ackPending h.phase, h.ackCmd ▸ rfl, State.atRest_endService _⟩

/-! ### Every step goes on -/

theorem sequencerStep_next (s : State) : ∃ t, sequencerStep s = .next t := by
  cases hp : s.phase with
  | idle => exact ⟨_, step_offer_sequencer_idle hp⟩
  | decoding => exact (step_offer_sequencer_decoding hp).imp fun _ h => h.1
  | ackPending => exact ⟨_, step_offer_sequencer_ackPending hp⟩

theorem step_next (s : State) : ∃ t, step s = .next t := by
  cases ht : s.nextTurn with
  | reset => exact ⟨_, step_reset ht⟩
  | clear => exact ⟨_, step_clear ht⟩
  | rxByte b => exact ⟨_, step_rxByte ht⟩
  | tick => exact ⟨_, step_tick ht⟩
  | sequencer =>
    rw [step_sequencer ht]
    exact sequencerStep_next s.popTurn

/-! ### From IDLE to rest -/

theorem runTurns_ticks_inactive (n : Nat) (hreceiving : s.receiving = false) :
    runTurns (List.replicate n .tick) s = .next s :=
  runTurns_fixed fun t ht => by
    rw [List.eq_of_mem_replicate ht]
    exact tickWithoutReceptionDoesNothing s hreceiving

/-- Ticks that carry the counter past the threshold complete the frame, however far the quiet period has come
(40_receive_buffer_and_timer.md R76, R81, the spec's decision D3). -/
theorem runTurns_ticks_complete {n : Nat} (hreceiving : s.receiving = true) (hle : s.idleTicks ≤ s.config.idleThreshold)
    (hpast : s.config.idleThreshold < s.idleTicks + n) :
    runTurns (List.replicate n .tick) s =
      .next { s with idleTicks := s.config.idleThreshold + 1, frameReady := true, receiving := false } := by
  induction n generalizing s with
  | zero => omega
  | succ n ih =>
    rw [List.replicate_succ, runTurns_cons (step_offer_tick s)]
    obtain hlt | heq := hle.lt_or_eq
    · rw [State.tick_counts hreceiving hlt]
      exact ih hreceiving hlt (by dsimp only; omega)
    · rw [State.tick_expires hreceiving heq]
      exact runTurns_ticks_inactive n rfl

/-- The sequencer's three turns end at rest from IDLE: they serve the waiting frame, or wait (44_sequencer.md R121 to R123). -/
theorem runTurns_sequencer_atRest (hp : s.phase = .idle) :
    ∃ t, runTurns [.sequencer, .sequencer, .sequencer] s = .next t ∧ t.AtRest := by
  cases hready : s.frameReady with
  | true =>
    obtain ⟨t, _, ht, hphase, hcleared, -⟩ := serviceSendsExactlyOneAck s hp hready
    exact ⟨t, ht, hphase, hcleared.frameReady⟩
  | false =>
    have hwait := (seqStartWaitsForFrameReady s hp).2 hready
    exact ⟨s, runTurns_fixed (by simpa using hwait), hp, hready⟩

end Sys2Proof.Machine

namespace Sys2Proof

open Sys2Proof.Machine

/-- Settles O23: a failed frame ends in RES_VERIFY, a verified one in what its command makes of it, and in both cases SeqAck sends the
latched pair. -/
theorem resultCodesTellTheOutcome : Obligations.ResultCodesTellTheOutcome := by
  intro s hp
  cases hf : s.fetch with
  | invalid e =>
    have hlatched := s.ackLatched_raiseVerificationError
    obtain ⟨v, hv, hsent, -⟩ := hlatched.seqAck
    exact ⟨_, v, step_offer_sequencer_invalid hp hf, hv, hsent, rfl, .inr (.inl rfl), iff_of_true rfl ⟨e, rfl⟩,
      iff_of_false (by simp) (by simp), fun _ => ⟨⟨rfl, rfl⟩, hlatched.ackCmd, hlatched.phase⟩⟩
  | valid i =>
    have hi := isReceived_of_fetch hf
    obtain ⟨t, ht⟩ := exec_next i s
    have hlatched := exec_received_ackLatched hi ht
    obtain ⟨v, hv, hsent, -⟩ := hlatched.seqAck
    have hres := exec_received_ackRes hi ht
    have hfull := exec_received_full_iff hi ht
    refine ⟨t, v, (step_offer_sequencer_valid hp hf).trans ht, hv, hsent, rfl, hres.imp_right .inr, ?verify, ?full,
      fun herror => ?kept⟩
    case verify => exact iff_of_false (by obtain h | h := hres <;> simp [h]) (by simp)
    case full => simpa using hfull
    case kept =>
      obtain ⟨p, rfl, hshort⟩ := hfull.mp (hres.resolve_left herror)
      exact ⟨exec_data_short_sessionUnchanged hshort ht, hlatched.ackCmd, hlatched.phase⟩

/-- Settles O43: a reception in IDLE completes within IDLE_THRESHOLD + 1 ticks and without one the ticks do nothing, so that the
sequencer's three turns find either a frame to serve or nothing to do. -/
theorem nothingIsFatal : Obligations.NothingIsFatal := by
  refine ⟨step_next, fun s hp => ?decoding, fun s => ⟨_, step_offer_reset s, rfl, rfl⟩, fun s hs hp => ?idle⟩
  case decoding =>
    obtain ⟨t, ht, hlatched⟩ := step_offer_sequencer_decoding hp
    obtain ⟨v, hv⟩ := hlatched.seqAck
    exact ⟨t, v, ht, hv⟩
  case idle =>
    cases hreceiving : s.receiving with
    | false =>
      rw [runTurns_append (runTurns_ticks_inactive _ hreceiving)]
      exact runTurns_sequencer_atRest hp
    | true =>
      have hle := (hs.receiving_tail hreceiving).2
      rw [runTurns_append (runTurns_ticks_complete hreceiving hle (by omega))]
      exact runTurns_sequencer_atRest hp

end Sys2Proof
end

section
/-! PROOF. What the decoder accepts, and which frames it rejects (41_frame_decoder.md R87, R92, R95 to R97): O2, O4, O5, O7, O9, O10. -/

namespace Sys2Proof

/-! ### What the decoder accepts -/

/-- A length the policy admits is the declared one, or the policy is `clamp` and the declared one exceeds MAX_PAYLOAD
(41_frame_decoder.md R87). -/
theorem boundLength_eq_some_cases {c : Config} {n len : Nat} (h : boundLength c n = some len) :
    len = n ∨ (c.overlenPolicy = .clamp ∧ c.maxPayload < n) := by
  obtain hn | hn := Nat.lt_or_ge c.maxPayload n
  · cases hpol : c.overlenPolicy with
    | reject => simp [boundLength_eq_none_iff.mpr ⟨hn, hpol⟩] at h
    | clamp => exact .inr ⟨rfl, hn⟩
  · exact .inl ((boundLength_eq_min h).trans (Nat.min_eq_left hn))

/-- The five bytes in front of the body are there in every accepted list (30_encoding.md R51). -/
theorem exists_header_of_decode_valid {c : Config} {bs : List Byte} {i : Instr} (h : decode c bs = .valid i) :
    ∃ h1 h2 cmd lenHi lenLo body, bs = h1 :: h2 :: cmd :: lenHi :: lenLo :: body := by
  match bs, h with
  | h1 :: h2 :: cmd :: lenHi :: lenLo :: body, _ => exact ⟨h1, h2, cmd, lenHi, lenLo, body, rfl⟩

/-- A frame's bytes from its two length bytes, where these say the payload's length (30_encoding.md R51, R52). -/
theorem encodeFrame_append_of_be16 {lenHi lenLo : Byte} {p : List Byte} (cmd : Byte) (rest : List Byte)
    (hlen : p.length = be16 lenHi lenLo) :
    encodeFrame cmd p ++ rest = head1 :: head2 :: cmd :: lenHi :: lenLo ::
      (p ++ xorFold (cmd :: lenHi :: lenLo :: p) :: tail1 :: tail2 :: rest) := by
  obtain ⟨hhi, hlo⟩ := length_bytes_of_be16 lenHi lenLo
  simp [encodeFrame, hlen, hhi, hlo]

theorem wellFormed_ofCmd {c : Config} {p : List Byte} (cmd : Byte) (hp : p.length ≤ c.maxPayload) :
    (ofCmd cmd p).wellFormed c = true := by
  simpa [wellFormed_of_isReceived c (isReceived_ofCmd cmd p), payload_ofCmd, payloadFits] using hp

/-- Settles O2: the accepted bytes are laid out as the frame of the selected instruction, if the length decoding went on with is the
declared one; it is another only under `clamp`. -/
theorem decodeAcceptsOnlyEncodings : Obligations.DecodeAcceptsOnlyEncodings := by
  intro c bs i h
  obtain ⟨h1, h2, cmd, lenHi, lenLo, body, rfl⟩ := exists_header_of_decode_valid h
  obtain ⟨rfl, rfl, len, rest, hlen, hdrop, rfl⟩ := decode_eq_valid_iff.mp h
  have htake : (body.take len).length = len := by
    have := congrArg List.length hdrop
    simp only [List.length_drop, List.length_cons] at this
    rw [List.length_take]
    omega
  refine ⟨isReceived_ofCmd _ _, wellFormed_ofCmd cmd (htake.trans_le (boundLength_le hlen)), ?_⟩
  obtain rfl | hclamp := boundLength_eq_some_cases hlen
  · refine .inl ⟨rest, ?_⟩
    rw [encode_ofCmd, encodeFrame_append_of_be16 cmd rest htake, ← hdrop, List.take_append_drop]
  · exact .inr hclamp

/-! ### Frames it accepts -/

/-- Settles O4: the five lists are encodings of well-formed received instructions. -/
theorem writtenOutFramesDecode : Obligations.WrittenOutFramesDecode :=
  ⟨decode_encode_append (i := .end_ []) [] rfl rfl, decode_encode_append (i := .begin [0x00, 0x00, 0x10, 0x00]) [] rfl rfl,
    decode_encode_append (i := .data [0xAA, 0xBB, 0xCC, 0xDD]) [] rfl rfl,
    decode_encode_append (i := .rsvd40_7F 0x3E []) [] rfl rfl, decode_encode_append (i := .ackRx [0x01, 0x00]) [] rfl rfl⟩

/-- Settles O5: the ten bytes are the encoding of the received ACK with the pair as payload, which fits every MAX_PAYLOAD. -/
theorem emittedAckDecodesAsReceivedAck : Obligations.EmittedAckDecodesAsReceivedAck := by
  intro c cc rr rest
  have hfits : (Instr.ackRx [cc, rr]).wellFormed c = true := by
    have := c.four_le_maxPayload
    simp only [Instr.wellFormed, payloadFits, List.length_cons, List.length_nil, decide_eq_true_eq]
    omega
  rw [← ackFrame_eq_bytes, ackFrame_eq_encode]
  exact decode_encode_append (i := .ackRx [cc, rr]) rest rfl hfits

/-! ### One corrupted byte -/

/-- Replacing a byte by another value changes the checksum: the XOR of the others cancels (41_frame_decoder.md R95 c). -/
theorem xorFold_set_ne {bs : List Byte} {k : Nat} {v : Byte} (hk : k < bs.length) (hv : bs[k]? ≠ some v) :
    xorFold (bs.set k v) ≠ xorFold bs := by
  induction bs generalizing k with
  | nil => simp at hk
  | cons b bs ih =>
    cases k with
    | zero => simpa [eq_comm] using hv
    | succ k => simpa using ih (Nat.lt_of_succ_lt_succ hk) hv

/-- A frame whose checksum byte is not the one its fields give fails check 3 (41_frame_decoder.md R88). -/
theorem decode_frameWith_wrong_checksum {c : Config} {p : List Byte} {cmd bcc : Byte} (rest : List Byte)
    (hp : p.length ≤ c.maxPayload) (hsum : frameChecksum cmd p ≠ bcc) :
    decode c (frameWith head1 head2 cmd p bcc tail1 tail2 ++ rest) = .invalid .checksumMismatch := by
  rw [decode_frameWith_append head1 head2 cmd bcc tail1 tail2 rest hp, if_neg (by simp), if_pos hsum]

theorem frameChecksum_ne_of_cmd_ne {cmd v : Byte} (p : List Byte) (hv : cmd ≠ v) : frameChecksum v p ≠ frameChecksum cmd p :=
  xorFold_set_ne (bs := [cmd, BitVec.ofNat 8 (p.length / 256), BitVec.ofNat 8 p.length] ++ p) (k := 0) (by simp) (by simpa using hv)

theorem frameChecksum_set_ne {p : List Byte} {j : Nat} {v : Byte} (cmd : Byte) (hj : j < p.length) (hv : p[j]? ≠ some v) :
    frameChecksum cmd (p.set j v) ≠ frameChecksum cmd p := by
  simpa [frameChecksum] using xorFold_set_ne hj hv

/-- The bytes behind the header of a frame: the payload, then the checksum (30_encoding.md R51). -/
theorem getElem?_frameWith_payload {p : List Byte} {j : Nat} (h1 h2 cmd bcc t1 t2 : Byte) (hj : j < p.length) :
    (frameWith h1 h2 cmd p bcc t1 t2)[5 + j]? = p[j]? := by
  simp [frameWith, Nat.add_comm 5 j, List.getElem?_append_left hj]

theorem set_frameWith_payload {p : List Byte} {j : Nat} (h1 h2 cmd bcc t1 t2 v : Byte) (hj : j < p.length) :
    (frameWith h1 h2 cmd p bcc t1 t2).set (5 + j) v = frameWith h1 h2 cmd (p.set j v) bcc t1 t2 := by
  simp [frameWith, Nat.add_comm 5 j, List.set_append_left _ _ hj]

theorem getElem?_frameWith_checksum (h1 h2 cmd : Byte) (p : List Byte) (bcc t1 t2 : Byte) :
    (frameWith h1 h2 cmd p bcc t1 t2)[5 + p.length]? = some bcc := by
  simp [frameWith, Nat.add_comm 5 p.length]

theorem set_frameWith_checksum (h1 h2 cmd : Byte) (p : List Byte) (bcc t1 t2 v : Byte) :
    (frameWith h1 h2 cmd p bcc t1 t2).set (5 + p.length) v = frameWith h1 h2 cmd p v t1 t2 := by
  simp [frameWith, Nat.add_comm 5 p.length, List.set_append_right]

/-- Settles O9: the changed frame is again one given by its fields, and its checksum byte is not its fields' checksum. -/
theorem oneCorruptedByteFailsTheChecksum : Obligations.OneCorruptedByteFailsTheChecksum := by
  intro c cmd p rest k v hp hk hv
  rw [← frameWith_eq_encodeFrame] at hv ⊢
  obtain rfl | ⟨hlo, hhi⟩ := hk
  case inl =>
    have hcmd : cmd ≠ v := fun h => hv (congrArg some h)
    exact decode_frameWith_wrong_checksum rest hp (frameChecksum_ne_of_cmd_ne p hcmd)
  case inr =>
    obtain ⟨j, rfl⟩ := Nat.exists_eq_add_of_le hlo
    obtain hj | rfl := (Nat.le_of_add_le_add_left hhi).lt_or_eq
    · rw [getElem?_frameWith_payload _ _ _ _ _ _ hj] at hv
      rw [set_frameWith_payload _ _ _ _ _ _ _ hj]
      exact decode_frameWith_wrong_checksum rest (List.length_set.trans_le hp) (frameChecksum_set_ne cmd hj hv)
    · rw [getElem?_frameWith_checksum] at hv
      rw [set_frameWith_checksum]
      exact decode_frameWith_wrong_checksum rest hp fun h => hv (congrArg some h)

end Sys2Proof

namespace Sys2Proof.Machine

/-! ### A buffer that holds a list of bytes -/

/-- The decoder sees the loaded bytes and zeros behind them (20_memory.md R49, the spec's decision D8). -/
theorem State.bufBytes_ofBytes {s : State} {bs : List Byte} (hbuf : s.buf = Memory.ofBytes bs) (hlen : bs.length ≤ s.config.cap) :
    s.bufBytes = bs ++ List.replicate (s.config.cap - bs.length) 0x00 := by
  apply List.ext_getElem?
  intro k
  rw [State.getElem?_bufBytes, hbuf, Memory.read_ofBytes]
  obtain hk | hk := Nat.lt_or_ge k bs.length
  · simp [List.getElem?_append_left hk, hk, hk.trans_le hlen]
  · rw [List.getElem?_append_right hk, List.getD_eq_default _ _ hk, List.getElem?_replicate]
    exact if_congr (by omega) rfl rfl

/-- The reset state in a given configuration with a list of bytes in its buffer. -/
def State.holding (c : Config) (bs : List Byte) : State := { State.reset with config := c, buf := Memory.ofBytes bs }

theorem State.fetch_holding {c : Config} {bs : List Byte} (hlen : bs.length ≤ c.cap) :
    (State.holding c bs).fetch = decode c (bs ++ List.replicate (c.cap - bs.length) 0x00) :=
  congrArg (decode c) (State.bufBytes_ofBytes (s := State.holding c bs) rfl hlen)

/-! ### Frames cut short -/

/-- A valid frame ends in the second trailer byte, `LEN` bounded by MAX_PAYLOAD (30_encoding.md R51, 41_frame_decoder.md R89). -/
theorem State.read_tail2_of_fetch_valid {s : State} {i : Instr} (h : s.fetch = .valid i) :
    s.buf.read (7 + min (be16 (s.buf.read 3) (s.buf.read 4)) s.config.maxPayload) = tail2 := by
  rw [State.fetch, State.bufBytes_eq] at h
  obtain ⟨-, -, len, rest, hlen, hdrop, -⟩ := decode_eq_valid_iff.mp h
  obtain ⟨rest', hbody⟩ := s.buf.drop_readRange_body (boundLength_le hlen)
  obtain ⟨-, -, htail, -⟩ := by simpa using hbody.symm.trans hdrop
  rwa [← boundLength_eq_min hlen]

/-- The last byte of a frame cut short reads as zero, and so does a trailer byte that a cut length would point at
(41_frame_decoder.md R97 c). -/
theorem State.fetch_truncated_ne_valid {s : State} {cmd : Byte} {p : List Byte} {n : Nat} (hp : p.length ≤ s.config.maxPayload)
    (hn : n < 8 + p.length) (hbuf : s.buf = Memory.ofBytes ((encodeFrame cmd p).take n)) (i : Instr) : s.fetch ≠ .valid i := by
  intro h
  have hread : ∀ j, s.buf.read j = if j < n then (encodeFrame cmd p).getD j 0x00 else 0x00 := by
    intro j
    rw [hbuf, Memory.read_ofBytes, List.getD_eq_getElem?_getD, List.getElem?_take]
    split <;> rfl
  have htail := State.read_tail2_of_fetch_valid h
  have hreceived : 7 + min (be16 (s.buf.read 3) (s.buf.read 4)) s.config.maxPayload < n := by
    by_contra hlate
    rw [hread, if_neg hlate] at htail
    exact absurd htail (by decide)
  have hlen : be16 (s.buf.read 3) (s.buf.read 4) = p.length := by
    rw [hread, hread, if_pos (by omega), if_pos (by omega)]
    exact be16_length p.length (hp.trans s.config.maxPayload_le)
  omega

end Sys2Proof.Machine

namespace Sys2Proof

open Sys2Proof.Machine

/-- Settles O7: the decoder's pseudocode, which answers for every buffer, names no such error. -/
theorem decoderNeverLeavesTheBuffer : Obligations.DecoderNeverLeavesTheBuffer := State.fetch_ne_indexOutOfRange

/-- Settles O10: the bytes are a buffer's with the cut frame loaded, which the decoder neither accepts nor leaves. -/
theorem truncatedFrameIsRejected : Obligations.TruncatedFrameIsRejected := by
  intro c cmd p n hp hn
  have htake : ((encodeFrame cmd p).take n).length = n := by
    rw [List.length_take, length_encodeFrame]
    omega
  have hcap : n ≤ c.cap := by
    unfold Config.cap
    omega
  have hfetch := State.fetch_holding (htake.trans_le hcap)
  rw [htake] at hfetch
  rw [← hfetch]
  cases hf : (State.holding c ((encodeFrame cmd p).take n)).fetch with
  | valid i => exact absurd hf (State.fetch_truncated_ne_valid hp hn rfl i)
  | invalid e => exact ⟨e, rfl, fun he => State.fetch_ne_indexOutOfRange _ (he ▸ hf)⟩

end Sys2Proof
end

section
/-! PROOF. What a step leaves of the parameters, the schedule and the session, and the invariant every step keeps (10_state.md R26, R29,
42_command_dispatch.md R108): O36, O39, O40, O41, O42. -/

namespace Sys2Proof.Machine

variable {s s' t : State}

/-! ### A safe receiver -/

/-- An empty receiver in IDLE is safe, whatever the session and the environment hold. -/
theorem State.safe_of_empty (hbuf : s.buf = []) (htail : s.tail = 0) (hreceiving : s.receiving = false) (hticks : s.idleTicks = 0)
    (hready : s.frameReady = false) (hphase : s.phase = .idle) (hres : isResultCode s.ackRes = true) : s.Safe where
  buf_wf := hbuf ▸ rfl
  buf_below := hbuf ▸ rfl
  tail_le := htail ▸ Nat.zero_le _
  not_both h := by simp [hready] at h
  idle_le := hticks ▸ Nat.zero_le _
  idle_iff := by simp [hticks, hready]
  receiving_tail h := by simp [hreceiving] at h
  busy h := absurd hphase h
  empty _ _ := ⟨htail, hticks, fun i => hbuf ▸ rfl⟩
  ackRes_legal := hres

/-- The invariant speaks of the receiver, the parameters, the phase and the result: a step that leaves the receiver keeps it if a frame
waits wherever the sequencer is busy, and the result is legal. -/
theorem State.Safe.of_receiverUnchanged (hs : s.Safe) (hbuf : t.buf = s.buf) (hr : s.ReceiverUnchanged t) (hconfig : t.config = s.config)
    (hphase : t.phase ≠ .idle → s.frameReady = true) (hres : isResultCode t.ackRes = true) : t.Safe where
  buf_wf := hbuf ▸ hs.buf_wf
  buf_below := by rw [hbuf, hconfig]; exact hs.buf_below
  tail_le := by rw [hr.tail, hconfig]; exact hs.tail_le
  not_both := by rw [hr.receiving, hr.frameReady]; exact hs.not_both
  idle_le := by rw [hr.idleTicks, hconfig]; exact hs.idle_le
  idle_iff := by rw [hr.idleTicks, hconfig, hr.frameReady]; exact hs.idle_iff
  receiving_tail := by rw [hr.receiving, hr.tail, hr.idleTicks, hconfig]; exact hs.receiving_tail
  busy h := ⟨hr.frameReady.trans (hphase h), hr.receiving.trans (hs.not_receiving (hphase h))⟩
  empty := by rw [hr.frameReady, hr.receiving, hr.tail, hr.idleTicks, hbuf]; exact hs.empty
  ackRes_legal := hres

theorem State.Safe.frameReady_of_busy (hs : s.Safe) (h : s.phase ≠ .idle) : s.frameReady = true := (hs.busy h).1

/-- While no frame waits the sequencer is in IDLE (10_state.md R29 e). -/
theorem State.Safe.idle_of_not_frameReady (hs : s.Safe) (h : s.frameReady = false) : s.phase = .idle := by
  by_contra hbusy
  simp [hs.frameReady_of_busy hbusy] at h

/-! ### The operations keep the invariant -/

theorem State.Safe.popTurn (hs : s.Safe) : s.popTurn.Safe :=
  hs.of_receiverUnchanged rfl ⟨fun _ => rfl, rfl, rfl, rfl, rfl⟩ rfl hs.frameReady_of_busy hs.ackRes_legal

theorem State.Safe.offer (turn : Turn) (hs : s.Safe) : (s.offer turn).Safe :=
  hs.of_receiverUnchanged rfl ⟨fun _ => rfl, rfl, rfl, rfl, rfl⟩ rfl hs.frameReady_of_busy hs.ackRes_legal

theorem State.safe_resetBlock (s : State) : s.resetBlock.Safe := State.safe_of_empty rfl rfl rfl rfl rfl rfl rfl

theorem State.Safe.clear (hs : s.Safe) : s.clear.Safe := by
  by_cases hp : s.phase = .idle
  · rw [State.clear_idle hp]
    exact State.safe_of_empty rfl rfl rfl rfl rfl hp hs.ackRes_legal
  · rwa [State.clear_busy hp]

/-- An accepted byte lands inside the buffer and starts the quiet period again (40_receive_buffer_and_timer.md R71, R73). -/
theorem State.Safe.rxByte (b : Byte) (hs : s.Safe) : (s.rxByte b).Safe := by
  cases hready : s.frameReady with
  | true => rwa [State.rxByte_dropped b hready]
  | false =>
    rw [State.rxByte_accepted b hready]
    have hcursor := s.writeCursor_lt_cap
    exact {
      buf_wf := Memory.wf_write hs.buf_wf _ b
      buf_below := Memory.below_write b hcursor hs.buf_below
      tail_le := hcursor
      not_both := by simp [hready]
      idle_le := Nat.zero_le _
      idle_iff := by simp [hready]
      receiving_tail := fun _ => ⟨Nat.le_add_left 1 _, Nat.zero_le _⟩
      busy := fun hbusy => absurd (hs.idle_of_not_frameReady hready) hbusy
      empty := nofun
      ackRes_legal := hs.ackRes_legal }

/-- A tick counts below the threshold and completes the frame at it (40_receive_buffer_and_timer.md R76). -/
theorem State.Safe.tick (hs : s.Safe) : s.tick.Safe := by
  cases hreceiving : s.receiving with
  | false => rwa [State.tick_inactive hreceiving]
  | true =>
    obtain ⟨htail, hle⟩ := hs.receiving_tail hreceiving
    have hready : s.frameReady = false := Bool.eq_false_iff.mpr fun h => hs.not_both ⟨hreceiving, h⟩
    have hidle := hs.idle_of_not_frameReady hready
    obtain hlt | heq := hle.lt_or_eq
    · rw [State.tick_counts hreceiving hlt]
      exact { hs with
        idle_le := Nat.le_succ_of_le hlt
        idle_iff := by simp [hready, hlt.ne]
        receiving_tail := fun _ => ⟨htail, hlt⟩
        empty := fun _ h => by simp [hreceiving] at h }
    · rw [State.tick_expires hreceiving heq]
      exact { hs with
        not_both := by simp
        idle_le := le_rfl
        idle_iff := by simp
        receiving_tail := nofun
        busy := fun hbusy => absurd hidle hbusy
        empty := nofun }

theorem State.Safe.seqStart (hs : s.Safe) : s.seqStart.Safe := by
  cases hready : s.frameReady with
  | false => rwa [State.seqStart_waits hready]
  | true =>
    rw [State.seqStart_ready hready]
    exact hs.of_receiverUnchanged rfl ⟨fun _ => rfl, rfl, rfl, rfl, rfl⟩ rfl (fun _ => hready) hs.ackRes_legal

theorem isResultCode_of_ok_or_full {r : Byte} (h : r = 0x00 ∨ r = 0x02) : isResultCode r = true := by
  obtain rfl | rfl := h <;> rfl

/-- Executing a frame leaves the receiver as it is and latches a legal result (44_sequencer.md R122). -/
theorem State.Safe.exec_received {i : Instr} (hs : s.Safe) (hready : s.frameReady = true) (hi : i.isReceived = true)
    (h : exec i s = .next s') : s'.Safe :=
  have hlatched := exec_received_ackLatched hi h
  hs.of_receiverUnchanged (exec_received_buf hi h) hlatched.receiver hlatched.environment.config (fun _ => hready)
    (isResultCode_of_ok_or_full (exec_received_ackRes hi h))

theorem State.Safe.raiseVerificationError (hs : s.Safe) (hready : s.frameReady = true) : s.raiseVerificationError.Safe :=
  hs.of_receiverUnchanged rfl ⟨fun _ => rfl, rfl, rfl, rfl, rfl⟩ rfl (fun _ => hready) rfl

theorem State.safe_endService (hres : isResultCode s.ackRes = true) : s.endService.Safe :=
  State.safe_of_empty rfl rfl rfl rfl rfl rfl hres

end Sys2Proof.Machine

namespace Sys2Proof

open Sys2Proof.Machine

/-- Settles O39: the receiver is empty, the sequencer in IDLE and the result 0x00. -/
theorem resetStateIsSafe : Obligations.ResetStateIsSafe := fun _ => State.safe_of_empty rfl rfl rfl rfl rfl rfl rfl

/-- Settles O40, turn by turn in the order of `step_cases`: taking the turn out of the schedule and each operation keep the invariant;
a busy sequencer has a frame waiting. -/
theorem everyStepKeepsSafe : Obligations.EveryStepKeepsSafe := by
  intro s s' hs h
  have hpop := hs.popTurn
  obtain ⟨-, rfl⟩ | ⟨-, rfl⟩ | ⟨b, -, rfl⟩ | ⟨-, rfl⟩ | ⟨-, -, rfl⟩ | ⟨-, hp, i, hf, he⟩ | ⟨-, hp, e, -, -, rfl⟩ | ⟨-, -, rfl⟩ :=
    step_cases h
  · exact State.safe_resetBlock _
  · exact hpop.clear
  · exact hpop.rxByte b
  · exact hpop.tick
  · exact hpop.seqStart
  · exact hpop.exec_received (hs.frameReady_of_busy (by simp [hp])) (isReceived_of_fetch hf) he
  · exact hpop.raiseVerificationError (hs.frameReady_of_busy (by simp [hp]))
  · exact State.safe_endService hs.ackRes_legal

end Sys2Proof

namespace Sys2Proof.Machine

variable {s s' t : State}

theorem State.Safe.runTurns {ts : List Turn} (hs : s.Safe) (h : runTurns ts s = .next t) : t.Safe := by
  induction ts generalizing s with
  | nil =>
    obtain rfl := Host.Outcome.next.inj h
    exact hs
  | cons turn ts ih =>
    obtain ⟨u, hu⟩ := step_next (s.offer turn)
    exact ih (everyStepKeepsSafe _ _ (hs.offer turn) hu) ((runTurns_cons hu).symm.trans h)

/-! ### The session -/

/-- Of the received commands BEGIN and a DATA that is not answered short change the session (42_command_dispatch.md R108). -/
theorem exec_received_session_cases {i : Instr} (hi : i.isReceived = true) (h : exec i s = .next s') :
    s.SessionUnchanged s' ∨ (∃ p, i = .begin p) ∨
      ∃ p, i = .data p ∧ p.length ≤ s.storeAnswer ∧ s'.baseOffset = s.baseOffset := by
  obtain ⟨p, rfl, rfl⟩ | ⟨p, rfl, -⟩ | ⟨-, rfl⟩ | ⟨c, r, rfl, -⟩ := exec_cases h
  · obtain hshort | hstored := Nat.lt_or_ge s.storeAnswer p.length
    · exact .inl (exec_data_short_sessionUnchanged hshort h)
    · exact .inr (.inr ⟨p, rfl, hstored, rfl⟩)
  · exact .inr (.inl ⟨p, rfl⟩)
  · exact .inl ⟨rfl, rfl⟩
  · cases hi

end Sys2Proof.Machine

namespace Sys2Proof

open Sys2Proof.Machine

/-- Settles O41: the run starts in a safe state, since the invariant does not speak of the storage's answers. -/
theorem everyExecutionStaysSafe : Obligations.EveryExecutionStaysSafe := fun _ _ _ _ h =>
  State.Safe.runTurns (State.safe_of_empty rfl rfl rfl rfl rfl rfl rfl) h

/-- Settles O42, turn by turn in the order of `step_cases`. -/
theorem parametersAreNeverWritten : Obligations.ParametersAreNeverWritten := by
  intro s s' h
  obtain ⟨-, rfl⟩ | ⟨-, rfl⟩ | ⟨b, -, rfl⟩ | ⟨-, rfl⟩ | ⟨-, -, rfl⟩ | ⟨-, -, i, hf, he⟩ | ⟨-, -, e, -, -, rfl⟩ | ⟨-, -, rfl⟩ :=
    step_cases h
  · exact ⟨rfl, rfl⟩
  · exact ⟨State.clear_config s.popTurn, State.clear_schedule s.popTurn⟩
  · exact ⟨State.rxByte_config s.popTurn b, State.rxByte_schedule s.popTurn b⟩
  · exact ⟨State.tick_config s.popTurn, State.tick_schedule s.popTurn⟩
  · exact ⟨State.seqStart_config s.popTurn, State.seqStart_schedule s.popTurn⟩
  · obtain ⟨hconfig, hschedule⟩ := (exec_received_ackLatched (isReceived_of_fetch hf) he).environment
    exact ⟨hconfig, hschedule⟩
  · exact ⟨rfl, rfl⟩
  · exact ⟨rfl, rfl⟩

/-- Settles O36, turn by turn in the order of `step_cases`: apart from a Reset only the execution of a frame reaches the session. -/
theorem sessionChangesOnlyByItsCommands : Obligations.SessionChangesOnlyByItsCommands := by
  intro s s' h
  obtain ⟨ht, -⟩ | ⟨-, rfl⟩ | ⟨b, -, rfl⟩ | ⟨-, rfl⟩ | ⟨-, -, rfl⟩ | ⟨ht, hp, i, hf, he⟩ | ⟨-, -, e, -, -, rfl⟩ | ⟨-, -, rfl⟩ :=
    step_cases h
  · exact .inr (.inl ht)
  · exact .inl ⟨State.clear_baseOffset s.popTurn, State.clear_bytesStored s.popTurn⟩
  · exact .inl ⟨State.rxByte_baseOffset s.popTurn b, State.rxByte_bytesStored s.popTurn b⟩
  · exact .inl ⟨State.tick_baseOffset s.popTurn, State.tick_bytesStored s.popTurn⟩
  · exact .inl ⟨State.seqStart_baseOffset s.popTurn, State.seqStart_bytesStored s.popTurn⟩
  · obtain ⟨hbase, hcount⟩ | ⟨p, rfl⟩ | ⟨p, rfl, hstored, hbase⟩ := exec_received_session_cases (isReceived_of_fetch hf) he
    · exact .inl ⟨hbase, hcount⟩
    · exact .inr (.inr ⟨ht, hp, .inl ⟨p, hf⟩⟩)
    · exact .inr (.inr ⟨ht, hp, .inr ⟨p, hf, hstored, hbase⟩⟩)
  · exact .inl ⟨rfl, rfl⟩
  · exact .inl ⟨rfl, rfl⟩

end Sys2Proof
end

section
/-! PROOF. A reception in time: quiet ticks, bytes in laps, and Clear (40_receive_buffer_and_timer.md R73, R76, R78, R80, R81): O13, O14,
O15, O16. -/

namespace Sys2Proof

open Sys2Proof.Machine

/-- Settles O13: the two cases of a tick while receiving. -/
theorem tickCountsThenDeclaresTheFrame : Obligations.TickCountsThenDeclaresTheFrame := fun _ hreceiving =>
  ⟨fun hbelow => congrArg _ (State.tick_counts hreceiving hbelow), fun hat => congrArg _ (State.tick_expires hreceiving hat)⟩

/-- Settles O16: in IDLE a Clear is the receiver clear, which touches no field outside the receiver. -/
theorem clearIsHonouredInIdleOnly : Obligations.ClearIsHonouredInIdleOnly := by
  refine fun s => ⟨fun hidle => ?honoured, fun hbusy => congrArg _ (State.clear_busy hbusy)⟩
  case honoured =>
    exact ⟨_, congrArg _ (State.clear_idle hidle), State.receiverCleared_clearReceiver s, ⟨rfl, rfl, rfl⟩, ⟨rfl, rfl⟩,
      ⟨rfl, rfl, rfl⟩, ⟨rfl, rfl⟩⟩

end Sys2Proof

namespace Sys2Proof.Machine

variable {s t : State}

/-! ### Quiet ticks -/

/-- Ticks that do not carry the counter past the threshold only count. -/
theorem runTurns_ticks_count {n : Nat} (hreceiving : s.receiving = true) (hle : s.idleTicks + n ≤ s.config.idleThreshold) :
    runTurns (List.replicate n .tick) s = .next { s with idleTicks := s.idleTicks + n } := by
  induction n generalizing s with
  | zero => rfl
  | succ n ih =>
    rw [List.replicate_succ, runTurns_cons (step_offer_tick s), State.tick_counts hreceiving (by omega), Nat.add_comm n 1,
      ← Nat.add_assoc]
    exact ih hreceiving (by dsimp only; omega)

end Sys2Proof.Machine

namespace Sys2Proof

open Sys2Proof.Machine

/-- Settles O14: up to the threshold the ticks count, and beyond it the frame is complete. -/
theorem quietPeriodIsThresholdPlusOneTicks : Obligations.QuietPeriodIsThresholdPlusOneTicks := by
  intro s n hreceiving hticks hready
  obtain hle | hgt := le_or_gt n s.config.idleThreshold
  · rw [runTurns_ticks_count hreceiving (by omega), hticks, Nat.zero_add, Nat.min_eq_left (by omega), decide_eq_true hle,
      decide_eq_false hle.not_gt, ← hreceiving, ← hready]
  · rw [runTurns_ticks_complete hreceiving (by omega) (by omega), Nat.min_eq_right hgt, decide_eq_true hgt,
      decide_eq_false hgt.not_ge]

end Sys2Proof

namespace Sys2Proof.Machine

variable {s t : State}

/-! ### Bytes in laps -/

/-- The cursor after `n` bytes into an empty buffer of `cap` bytes: it rests at CAP after CAP bytes and wraps with the byte behind them
(the spec's decision D4). -/
def lapTail (cap : Nat) : Nat → Nat
  | 0 => 0
  | n + 1 => n % cap + 1

theorem lapTail_eq_ite (cap n : Nat) : lapTail cap n = if n ≤ cap then n else (n - 1) % cap + 1 := by
  cases n with
  | zero => rfl
  | succ n =>
    obtain h | h := Nat.lt_or_ge n cap
    · rw [if_pos (Nat.succ_le_of_lt h), lapTail, Nat.mod_eq_of_lt h]
    · rw [if_neg (Nat.not_le_of_lt (Nat.lt_succ_of_le h))]
      rfl

/-- The byte behind them goes to their number wrapped. -/
theorem wrap_lapTail {cap : Nat} (hcap : 0 < cap) (n : Nat) :
    (if cap ≤ lapTail cap n then 0 else lapTail cap n) = n % cap := by
  cases n with
  | zero => simp [lapTail]
  | succ n =>
    have hlt := Nat.mod_lt n hcap
    rw [lapTail, ← Nat.mod_add_mod]
    split
    next hfull => rw [show n % cap + 1 = cap by omega, Nat.mod_self]
    next hroom => rw [Nat.mod_eq_of_lt (Nat.lt_of_not_ge hroom)]

/-- What a receiver of `cap` bytes, empty before, holds after the stream `d` (40_receive_buffer_and_timer.md R73, R80): the cursor where
the next byte goes, and at each index the last byte that fell on it. -/
structure State.HoldsLaps (cap : Nat) (d : List Byte) (t : State) : Prop where
  cap_eq : t.config.cap = cap
  buf_wf : t.buf.wf = true
  frameReady : t.frameReady = false
  tail : t.tail = lapTail cap d.length
  read_last : ∀ i j, j < d.length → j % cap = i → (∀ k, j < k → k < d.length → k % cap ≠ i) → t.buf.read i = d.getD j 0x00
  read_none : ∀ i, (∀ j, j < d.length → j % cap ≠ i) → t.buf.read i = 0x00

theorem State.HoldsLaps.writeCursor_eq {cap : Nat} {d : List Byte} (h : t.HoldsLaps cap d) : t.writeCursor = d.length % cap := by
  have hcap : 0 < cap := h.cap_eq ▸ (Nat.zero_lt_succ 11).trans_le (twelve_le_cap t.config)
  rw [State.writeCursor, h.cap_eq, h.tail, wrap_lapTail hcap]

theorem State.holdsLaps_nil (hbuf : s.buf = []) (htail : s.tail = 0) (hready : s.frameReady = false) :
    s.HoldsLaps s.config.cap [] where
  cap_eq := rfl
  buf_wf := hbuf ▸ rfl
  frameReady := hready
  tail := htail
  read_last := nofun
  read_none _ _ := hbuf ▸ rfl

/-- A byte ends up last on its own index and leaves the last bytes on the others. -/
theorem State.HoldsLaps.rxByte {cap : Nat} {d : List Byte} (h : t.HoldsLaps cap d) (b : Byte) :
    (t.rxByte b).HoldsLaps cap (d ++ [b]) := by
  have hread := Memory.read_write h.buf_wf t.writeCursor b
  rw [h.writeCursor_eq] at hread
  rw [State.rxByte_accepted b h.frameReady, h.writeCursor_eq]
  refine ⟨h.cap_eq, Memory.wf_write h.buf_wf _ b, h.frameReady, ?tail, fun i j hj hi hlast => ?last, fun i hnone => ?none⟩
  case tail =>
    rw [List.length_append]
    rfl
  case last =>
    rw [List.length_append, List.length_singleton] at hj hlast
    dsimp only
    rw [hread]
    obtain hj | rfl := (Nat.le_of_lt_succ hj).lt_or_eq
    · rw [if_neg (hlast d.length hj (Nat.lt_succ_self _)).symm, List.getD_append _ _ _ _ hj]
      exact h.read_last i j hj hi fun k hjk hk => hlast k hjk (Nat.lt_succ_of_lt hk)
    · rw [if_pos hi.symm]
      simp
  case none =>
    rw [List.length_append, List.length_singleton] at hnone
    dsimp only
    rw [hread, if_neg (hnone d.length (Nat.lt_succ_self _)).symm]
    exact h.read_none i fun j hj => hnone j (Nat.lt_succ_of_lt hj)

theorem runTurns_rxBytes_holdsLaps {cap : Nat} (hs : s.HoldsLaps cap []) (d : List Byte) :
    ∃ t, runTurns (d.map .rxByte) s = .next t ∧ t.HoldsLaps cap d := by
  induction d using List.reverseRecOn with
  | nil => exact ⟨s, rfl, hs⟩
  | append_singleton d b ih =>
    obtain ⟨t, ht, hlaps⟩ := ih
    refine ⟨_, ?_, hlaps.rxByte b⟩
    rw [List.map_append, runTurns_append ht]
    rfl

end Sys2Proof.Machine

namespace Sys2Proof

open Sys2Proof.Machine

/-- Settles O15: the laps are kept byte by byte from the empty receiver. -/
theorem overflowLaysTheStreamInLaps : Obligations.OverflowLaysTheStreamInLaps := by
  intro s d hbuf htail hready
  obtain ⟨t, ht, hlaps⟩ := runTurns_rxBytes_holdsLaps (State.holdsLaps_nil hbuf htail hready) d
  exact ⟨t, ht, hlaps.frameReady, hlaps.tail.trans (lapTail_eq_ite _ _), fun i j _ => hlaps.read_last i j, hlaps.read_none⟩

end Sys2Proof
end

section
/-! PROOF. BEGIN, the commands with no action, the sequencer's turn on a decoded frame, and Reset (42_command_dispatch.md R102 to R106,
44_sequencer.md R122, 70_reset_and_hazards.md R153): O21, O31, O33, O34, O38. -/

namespace Sys2Proof

open Sys2Proof.Machine

/-- Settles O21: the decoded bytes are the candidate frame, and taking the offered turn out of the schedule gives the state back. -/
theorem stepRunsTheDecodedInstruction : Obligations.StepRunsTheDecodedInstruction :=
  ⟨fun _ _ hp hdecode => step_offer_sequencer_valid hp hdecode, fun _ hp => step_offer_sequencer_ackPending hp⟩

theorem toNat_append_byte {m : Nat} (high : BitVec m) (low : Byte) : (high ++ low).toNat = high.toNat * 2 ^ 8 + low.toNat := by
  rw [BitVec.toNat_append, ← Nat.shiftLeft_add_eq_or_of_lt low.isLt, Nat.shiftLeft_eq]

/-- The first byte is the most significant (00_scope.md section 6, 20_memory.md R36). -/
theorem toNat_be32 (b0 b1 b2 b3 : Byte) :
    (be32 b0 b1 b2 b3).toNat = b0.toNat * 2 ^ 24 + b1.toNat * 2 ^ 16 + b2.toNat * 2 ^ 8 + b3.toNat := by
  rw [be32, toNat_append_byte, toNat_append_byte, toNat_append_byte]
  omega

/-- Settles O31: the big-endian value of the four bytes, and the frame of the record update. -/
theorem beginSetsTheSession : Obligations.BeginSetsTheSession := fun p s =>
  ⟨_, exec_begin p s, toNat_be32 _ _ _ _, rfl, rfl, rfl, rfl, ⟨fun _ => rfl, rfl, rfl, rfl, rfl⟩, ⟨rfl, rfl, rfl⟩, ⟨rfl, rfl⟩⟩

/-- Settles O33: a received ACK is one of the commands that only take the result OK. -/
theorem receivedAckOnlyAcknowledges : Obligations.ReceivedAckOnlyAcknowledges := fun p s =>
  acknowledgedOnly_of_isPassive (i := .ackRx p) trivial s

/-- Settles O34: each of the thirteen reserved rows is one of the commands that only take the result OK. -/
theorem reservedCommandsOnlyAcknowledge : Obligations.ReservedCommandsOnlyAcknowledge := by
  intro p s
  have hpassive : ∀ i, IsPassive i → AcknowledgedOnly i s := fun i hi => acknowledgedOnly_of_isPassive hi s
  exact ⟨hpassive _ trivial, fun _ => hpassive _ trivial, fun _ => hpassive _ trivial, fun _ => hpassive _ trivial,
    fun _ => hpassive _ trivial, fun _ => hpassive _ trivial, fun _ => hpassive _ trivial, fun _ => hpassive _ trivial,
    fun _ => hpassive _ trivial, fun _ => hpassive _ trivial, fun _ => hpassive _ trivial, fun _ => hpassive _ trivial,
    hpassive _ trivial⟩

/-- Settles O38: every field of the block has its reset value in the record, and the environment's fields are kept. -/
theorem resetRestoresEveryField : Obligations.ResetRestoresEveryField := fun s =>
  ⟨_, step_offer_reset s, State.receiverCleared_resetBlock s, rfl, rfl, rfl, rfl, rfl, ⟨rfl, rfl, rfl⟩, ⟨rfl, rfl⟩⟩

end Sys2Proof
end

section
/-! PROOF. A frame delivered from the wire to its ACK (30_encoding.md section 8, 44_sequencer.md section 3): O44. -/

namespace Sys2Proof.Machine

variable {s u : State}

/-! ### Loading a frame -/

/-- A byte at the cursor behind the loaded bytes loads it (40_receive_buffer_and_timer.md R71). -/
theorem Memory.write_ofBytes_length (d : List Byte) (b : Byte) :
    (Memory.ofBytes d).write d.length b = Memory.ofBytes (d ++ [b]) := by
  refine Memory.eq_of_read (Memory.wf_write (Memory.wf_ofBytes d) _ b) (Memory.wf_ofBytes _) fun i => ?_
  rw [Memory.read_write (Memory.wf_ofBytes d), Memory.read_ofBytes, Memory.read_ofBytes]
  obtain hlt | rfl | hgt := lt_trichotomy i d.length
  · rw [if_neg hlt.ne, List.getD_append _ _ _ _ hlt]
  · simp
  · rw [if_neg hgt.ne', List.getD_eq_default _ _ hgt.le, List.getD_eq_default _ _ (by simpa using hgt)]

/-- The receiver that accepted the bytes `d`, one or more, since it was last empty, and no tick since. -/
def State.withReceived (d : List Byte) (s : State) : State :=
  { s with buf := Memory.ofBytes d, tail := d.length, receiving := true, idleTicks := 0 }

theorem State.rxByte_withReceived {d : List Byte} (b : Byte) (hready : s.frameReady = false) (hroom : d.length < s.config.cap) :
    (s.withReceived d).rxByte b = s.withReceived (d ++ [b]) := by
  have hcursor : (s.withReceived d).writeCursor = d.length := if_neg hroom.not_ge
  rw [State.rxByte_accepted (s := s.withReceived d) b hready, hcursor]
  simp [State.withReceived, Memory.write_ofBytes_length]

theorem State.rxByte_empty (b : Byte) (hready : s.frameReady = false) (hbuf : s.buf = []) (htail : s.tail = 0) :
    s.rxByte b = s.withReceived [b] := by
  have hcursor : s.writeCursor = 0 := by rw [State.writeCursor, htail, ite_self]
  rw [State.rxByte_accepted b hready, hcursor, hbuf]
  rfl

/-- Bytes that fit are loaded into an empty receiver in order (40_receive_buffer_and_timer.md R71). -/
theorem runTurns_rxBytes_withReceived {d : List Byte} (hready : s.frameReady = false) (hbuf : s.buf = []) (htail : s.tail = 0)
    (hne : d ≠ []) (hfits : d.length ≤ s.config.cap) : runTurns (d.map .rxByte) s = .next (s.withReceived d) := by
  induction d using List.reverseRecOn with
  | nil => exact absurd rfl hne
  | append_singleton d b ih =>
    rw [List.length_append, List.length_singleton] at hfits
    rw [List.map_append]
    obtain rfl | hd := eq_or_ne d []
    · exact congrArg _ (State.rxByte_empty b hready hbuf htail)
    · rw [runTurns_append (ih hd (Nat.le_of_succ_le hfits))]
      exact congrArg _ (State.rxByte_withReceived b hready hfits)

/-! ### From the loaded frame to its ACK -/

/-- The receiver with the complete frame `d` (40_receive_buffer_and_timer.md R76). -/
def State.withComplete (d : List Byte) (s : State) : State :=
  { s with
    buf := Memory.ofBytes d
    tail := d.length
    receiving := false
    idleTicks := s.config.idleThreshold + 1
    frameReady := true }

/-- The quiet period behind the last byte completes the frame. -/
theorem runTurns_ticks_withReceived (d : List Byte) (s : State) :
    runTurns (List.replicate (s.config.idleThreshold + 1) .tick) (s.withReceived d) = .next (s.withComplete d) :=
  runTurns_ticks_complete (s := s.withReceived d) rfl (Nat.zero_le _) (Nat.lt_of_succ_le (Nat.le_add_left _ _))

/-- The complete frame `d` taken up by SeqStart. -/
def State.withCandidate (d : List Byte) (s : State) : State := { s.withComplete d with phase := .decoding }

theorem length_encode_le_cap {c : Config} {i : Instr} (hi : i.isReceived = true) (hw : i.wellFormed c = true) :
    (encode i).length ≤ c.cap := by
  have hp := payload_length_le hi hw
  rw [encode, length_encodeFrame, Config.cap]
  omega

theorem encode_ne_nil (i : Instr) : encode i ≠ [] := nofun

/-- The decoder finds the delivered instruction (41_frame_decoder.md R95 a). -/
theorem State.fetch_withCandidate {i : Instr} (hi : i.isReceived = true) (hw : i.wellFormed s.config = true) :
    (s.withCandidate (encode i)).fetch = .valid i := by
  rw [State.fetch, State.bufBytes_ofBytes (s := s.withCandidate (encode i)) rfl (length_encode_le_cap hi hw)]
  exact decode_encode_append _ hi hw

/-- `buf[2]` of a delivered frame is its command byte (30_encoding.md R51). -/
theorem State.read_cmd_withCandidate (i : Instr) (s : State) : (s.withCandidate (encode i)).buf.read 2 = i.cmd :=
  Memory.read_ofBytes (encode i) 2

/-- The quiet period behind a delivered frame completes it, and the service executes it and sends the ACK. -/
theorem runTurns_delivery {i : Instr} (hi : i.isReceived = true) (hw : i.wellFormed s.config = true) (hready : s.frameReady = false)
    (hbuf : s.buf = []) (htail : s.tail = 0) (hp : s.phase = .idle) (hu : exec i (s.withCandidate (encode i)) = .next u) :
    runTurns ((encode i).map .rxByte ++ List.replicate (s.config.idleThreshold + 1) .tick ++ [.sequencer, .sequencer, .sequencer]) s =
      exec (.ackTx i.cmd u.ackRes) u := by
  have hload := runTurns_rxBytes_withReceived hready hbuf htail (encode_ne_nil i) (length_encode_le_cap hi hw)
  have hquiet := runTurns_ticks_withReceived (encode i) s
  have hexecute := (step_offer_sequencer_valid rfl (State.fetch_withCandidate hi hw)).trans hu
  have hlatched := exec_received_ackLatched hi hu
  have hservice := runTurns_service (s := s.withComplete (encode i)) hp rfl hexecute hlatched.phase
  rw [List.append_assoc, runTurns_append hload, runTurns_append hquiet, hservice, hlatched.ackCmd, State.read_cmd_withCandidate,
    exec_ackTx]

end Sys2Proof.Machine

namespace Sys2Proof

open Sys2Proof.Machine

/-- Settles O44: a safe block at rest that receives nothing has an empty receiver, into which the frame is delivered. -/
theorem deliveredFrameIsExecutedAndAcknowledged : Obligations.DeliveredFrameIsExecutedAndAcknowledged := by
  intro s i hs hrest hreceiving hi hw
  obtain ⟨hp, hready⟩ := hrest
  obtain ⟨htail, -, hread⟩ := hs.empty hready hreceiving
  have hbuf := Memory.eq_nil_of_read hs.buf_wf hread
  obtain ⟨u, hu⟩ := exec_next i (s.withCandidate (encode i))
  exact ⟨u, _, hu, exec_ackTx i.cmd u.ackRes u, runTurns_delivery hi hw hready hbuf htail hp hu⟩

end Sys2Proof
end

section
/-! PROOF. Turns one after another, and the core's run of the schedule that lists them (00_scope.md R6): O45. -/

namespace Sys2Proof.Machine

variable {s s' : State}

/-! ### The schedule is looked at only to take its first turn -/

/-- The state with another schedule. -/
def State.withSchedule (ts : List Turn) (s : State) : State := { s with schedule := ts }

theorem exec_withSchedule {i : Instr} (ts : List Turn) (h : exec i s = .next s') :
    exec i (s.withSchedule ts) = .next (s'.withSchedule ts) := by
  obtain ⟨p, rfl, rfl⟩ | ⟨p, rfl, rfl⟩ | ⟨hpassive, rfl⟩ | ⟨c, r, rfl, rfl⟩ := exec_cases h
  · rfl
  · rfl
  · exact exec_passive hpassive _
  · rfl

theorem State.clear_withSchedule (ts : List Turn) (s : State) : (s.withSchedule ts).clear = s.clear.withSchedule ts := by
  unfold State.clear
  simp only [apply_ite (State.withSchedule ts)]
  rfl

theorem State.rxByte_withSchedule (b : Byte) (ts : List Turn) (s : State) :
    (s.withSchedule ts).rxByte b = (s.rxByte b).withSchedule ts := by
  unfold State.rxByte
  simp only [apply_ite (State.withSchedule ts)]
  rfl

theorem State.tick_withSchedule (ts : List Turn) (s : State) : (s.withSchedule ts).tick = s.tick.withSchedule ts := by
  unfold State.tick
  simp only [apply_ite (State.withSchedule ts)]
  rfl

theorem State.seqStart_withSchedule (ts : List Turn) (s : State) : (s.withSchedule ts).seqStart = s.seqStart.withSchedule ts := by
  unfold State.seqStart
  simp only [apply_ite (State.withSchedule ts)]
  rfl

theorem sequencerStep_withSchedule (ts : List Turn) (h : sequencerStep s = .next s') :
    sequencerStep (s.withSchedule ts) = .next (s'.withSchedule ts) := by
  rw [← step_offer_sequencer] at h ⊢
  cases hp : s.phase with
  | idle =>
    obtain rfl := Host.Outcome.next.inj ((step_offer_sequencer_idle hp).symm.trans h)
    rw [step_offer_sequencer_idle (s := s.withSchedule ts) hp, State.seqStart_withSchedule]
  | decoding =>
    cases hf : s.fetch with
    | valid i =>
      rw [step_offer_sequencer_valid (s := s.withSchedule ts) hp hf]
      exact exec_withSchedule ts ((step_offer_sequencer_valid hp hf).symm.trans h)
    | invalid e =>
      obtain rfl := Host.Outcome.next.inj ((step_offer_sequencer_invalid hp hf).symm.trans h)
      rw [step_offer_sequencer_invalid (s := s.withSchedule ts) hp hf]
      rfl
  | ackPending =>
    obtain rfl := Host.Outcome.next.inj ((step_offer_sequencer_ackPending hp).symm.trans h)
    rw [step_offer_sequencer_ackPending (s := s.withSchedule ts) hp]
    rfl

/-- A turn does the same whatever schedule stands behind it. -/
theorem step_withSchedule {t : Turn} (ts : List Turn) (h : step (s.offer t) = .next s') :
    step (s.withSchedule (t :: ts)) = .next (s'.withSchedule ts) := by
  cases t with
  | reset =>
    obtain rfl := Host.Outcome.next.inj h
    rfl
  | clear =>
    obtain rfl := Host.Outcome.next.inj h
    exact congrArg _ (State.clear_withSchedule ts s)
  | rxByte b =>
    obtain rfl := Host.Outcome.next.inj h
    exact congrArg _ (State.rxByte_withSchedule b ts s)
  | tick =>
    obtain rfl := Host.Outcome.next.inj h
    exact congrArg _ (State.tick_withSchedule ts s)
  | sequencer => exact sequencerStep_withSchedule (s := s) ts h

end Sys2Proof.Machine

namespace Sys2Proof

open Sys2Proof.Machine

/-- Settles O45, by induction on the turns: the core's step takes the listed turn, and what it leaves is the state behind that turn
with the rest of the schedule. -/
theorem runningTurnsIsRunningTheSchedule : Obligations.RunningTurnsIsRunningTheSchedule := by
  intro ts s
  change runTurns ts s = core.run ts.length (s.withSchedule (ts ++ s.schedule))
  induction ts generalizing s with
  | nil => rfl
  | cons t ts ih =>
    obtain ⟨u, hu⟩ := step_next (s.offer t)
    have hschedule : u.schedule = s.schedule := (parametersAreNeverWritten _ _ hu).2
    rw [runTurns_cons hu, ih u, hschedule]
    exact (Core.run_succ core ts.length (step_withSchedule (ts ++ s.schedule) hu)).symm

end Sys2Proof
end
